-- ==== Sys2Proof/Word.lean ====
section
/-! DEFINITION. The words of MCE, with the widths of 00_scope.md R6 at their defaults
(W_T = 32, W_U = 16, W_A = 16; log 2). -/

namespace Sys2Proof

/-- A character code or a MorsePattern: 8 bits (R46, R53). -/
abbrev Byte := BitVec 8

/-- A value of the clock `NOW` or of `deadline`: `W_T` = 32 bits (R6). DESIGN CHOICE, log 2. -/
abbrev Tick := BitVec 32

/-- A dit-duration unit, in ticks: `W_U` = 16 bits (R6). DESIGN CHOICE, log 2. -/
abbrev Duration := BitVec 16

/-- An address of the message memory: `W_A` = 16 bits (R6). DESIGN CHOICE, log 2. -/
abbrev Addr := BitVec 16

end Sys2Proof
end

