-- ==== Sys2Proof/Config.lean ====
section
/-! DEFINITION. What the spec leaves open about one MCE: the two prosign patterns and the sidetone
frequency (00_scope.md R6), as free values that no proof can see, and what a byte of message memory
reads as when the environment has stored nothing there. -/

namespace Sys2Proof.Config

/-- Which of the 125 admissible patterns the Code Table holds for `*` (R104, R108). Free value: log 3. -/
opaque starChoice : Fin 125

/-- Which of the 125 admissible patterns the Code Table holds for `#` (R105, R109). Free value: log 4. -/
opaque hashChoice : Fin 125

/-- The frequency of the sidetone oscillator, `F_SIDETONE` (R6): "OPEN; no rule reads it". Free value: log 5. -/
opaque fSidetone : Nat

/-- The 125 values of the second row of the table of 30_encoding.md R52 in rising order:
`0x80` to `0xFD` with the sentinel `0xEF` left out. -/
def admissiblePattern (i : Fin 125) : Byte :=
  BitVec.ofNat 8 (if i.val < 111 then 0x80 + i.val else 0x81 + i.val)

/-- `PAT_STAR` (R6, R104), any value that R108 admits. -/
def patStar : Byte := admissiblePattern starChoice

/-- `PAT_HASH` (R6, R105), any value that R109 admits. -/
def patHash : Byte := admissiblePattern hashChoice

/-- What an address of the message memory that nothing has written reads as. DESIGN CHOICE, unsafe: log 7. -/
def unlistedByte : Byte := 0x00#8

end Sys2Proof.Config
end

