-- ==== Sys2Proof/Machine/Constants.lean ====
section
/-! DEFINITION. The constants of 00_scope.md R7. -/

namespace Sys2Proof.Machine

/-- `DIT_UNITS`: "DIT = 1 unit" (R7). -/
def ditUnits : Nat := 1

/-- `DAH_UNITS`: "DAH = 3 units" (R7). -/
def dahUnits : Nat := 3

/-- `IEG_UNITS`: the inter-element gap (R7). -/
def iegUnits : Nat := 1

/-- `SPACE_UNITS`: the block of the space special case (R7; 90_conflicts.md C4). -/
def spaceUnits : Nat := 4

/-- `CHAR_GAP_UNITS`: the Message Sender's delay after a character (R7; C4). -/
def charGapUnits : Nat := 2

/-- `SPACE_PATTERN`, the space sentinel (R7, R48; C5). -/
def spacePattern : Byte := 0xEF#8

/-- `MSG_TERM`, the byte that ends a message (R7, R56). -/
def msgTerm : Byte := 0x00#8

end Sys2Proof.Machine
end

