-- ==== Sys2Proof/Syntax.lean ====
section
/-! DEFINITION. The instructions of MCE, one constructor per row of the opcode table, and the three
formats their words have (30_encoding.md R45). -/

namespace Sys2Proof

/-- The three kinds of word (R45). A byte does not say which kind it is: the place it stands in does
(a message, a pattern operand, the `CMD` port). -/
inductive Format where
  /-- an 8-bit character code of a message (R53) -/
  | char8
  /-- an 8-bit MorsePattern (R46) -/
  | pat8
  /-- the 2-bit command (R57) -/
  | cmd2
  deriving DecidableEq, Repr

/-- How many bits a word of the format has (R45, R57). -/
def Format.width : Format → Nat
  | .char8 => 8
  | .pat8 => 8
  | .cmd2 => 2

/-- The instructions. A CHAR8 word has no operand; FALLBACK keeps the unsupported byte; a PAT8
constructor keeps its element bits, first element in the highest bit (R49); the operands of a
command are ports, not fields (R57). -/
inductive Instr where
  /-- `A`, CHAR8 (R65) -/
  | chA
  /-- `B`, CHAR8 (R66) -/
  | chB
  /-- `C`, CHAR8 (R67) -/
  | chC
  /-- `D`, CHAR8 (R68) -/
  | chD
  /-- `E`, CHAR8 (R69) -/
  | chE
  /-- `F`, CHAR8 (R70) -/
  | chF
  /-- `G`, CHAR8 (R71) -/
  | chG
  /-- `H`, CHAR8 (R72) -/
  | chH
  /-- `I`, CHAR8 (R73) -/
  | chI
  /-- `J`, CHAR8 (R74) -/
  | chJ
  /-- `K`, CHAR8 (R75) -/
  | chK
  /-- `L`, CHAR8 (R76) -/
  | chL
  /-- `M`, CHAR8 (R77) -/
  | chM
  /-- `N`, CHAR8 (R78) -/
  | chN
  /-- `O`, CHAR8 (R79) -/
  | chO
  /-- `P`, CHAR8 (R80) -/
  | chP
  /-- `Q`, CHAR8 (R81) -/
  | chQ
  /-- `R`, CHAR8 (R82) -/
  | chR
  /-- `S`, CHAR8 (R83) -/
  | chS
  /-- `T`, CHAR8 (R84) -/
  | chT
  /-- `U`, CHAR8 (R85) -/
  | chU
  /-- `V`, CHAR8 (R86) -/
  | chV
  /-- `W`, CHAR8 (R87) -/
  | chW
  /-- `X`, CHAR8 (R88) -/
  | chX
  /-- `Y`, CHAR8 (R89) -/
  | chY
  /-- `Z`, CHAR8 (R90) -/
  | chZ
  /-- `0`, CHAR8 (R91) -/
  | dig0
  /-- `1`, CHAR8 (R92) -/
  | dig1
  /-- `2`, CHAR8 (R93) -/
  | dig2
  /-- `3`, CHAR8 (R94) -/
  | dig3
  /-- `4`, CHAR8 (R95) -/
  | dig4
  /-- `5`, CHAR8 (R96) -/
  | dig5
  /-- `6`, CHAR8 (R97) -/
  | dig6
  /-- `7`, CHAR8 (R98) -/
  | dig7
  /-- `8`, CHAR8 (R99) -/
  | dig8
  /-- `9`, CHAR8 (R100) -/
  | dig9
  /-- `SPACE`, CHAR8 (R101) -/
  | space
  /-- `/`, CHAR8 (R102) -/
  | slash
  /-- `?`, CHAR8 (R103) -/
  | question
  /-- `*`, CHAR8 (R104) -/
  | star
  /-- `#`, CHAR8 (R105) -/
  | hash
  /-- `FALLBACK`, CHAR8 (R106) -/
  | fallback (c : Byte)
  /-- `MSG_TERM`, CHAR8 (R135) -/
  | msgTerm
  /-- `PAT_SPACE`, PAT8 (R112) -/
  | patSpace
  /-- `PAT_1`, PAT8 (R114) -/
  | pat1 (e : BitVec 1)
  /-- `PAT_2`, PAT8 (R114) -/
  | pat2 (e : BitVec 2)
  /-- `PAT_3`, PAT8 (R114) -/
  | pat3 (e : BitVec 3)
  /-- `PAT_4`, PAT8 (R114) -/
  | pat4 (e : BitVec 4)
  /-- `PAT_5`, PAT8 (R114) -/
  | pat5 (e : BitVec 5)
  /-- `PAT_6`, PAT8 (R114) -/
  | pat6 (e : BitVec 6)
  /-- `PAT_0`, PAT8 (R130) -/
  | pat0
  /-- `PAT_NOSTART`, PAT8 (R130) -/
  | patNoStart
  /-- `PAT_7`, PAT8 (R130) -/
  | pat7 (e : BitVec 7)
  /-- `NOP`, CMD2 (R142) -/
  | nop
  /-- `PLAY`, CMD2 (R143) -/
  | play
  /-- `SEND`, CMD2 (R144) -/
  | send
  /-- `RESERVED`, CMD2 (R142) -/
  | reserved
  deriving DecidableEq, Repr

/-- The format of an instruction's word. -/
def Instr.format : Instr → Format
  | .chA | .chB | .chC | .chD | .chE | .chF | .chG | .chH | .chI | .chJ | .chK | .chL | .chM
  | .chN | .chO | .chP | .chQ | .chR | .chS | .chT | .chU | .chV | .chW | .chX | .chY | .chZ
  | .dig0 | .dig1 | .dig2 | .dig3 | .dig4 | .dig5 | .dig6 | .dig7 | .dig8 | .dig9 | .space
  | .slash | .question | .star | .hash | .fallback _ | .msgTerm => .char8
  | .patSpace | .pat1 _ | .pat2 _ | .pat3 _ | .pat4 _ | .pat5 _ | .pat6 _ | .pat0 | .patNoStart
  | .pat7 _ => .pat8
  | .nop | .play | .send | .reserved => .cmd2

end Sys2Proof
end

