-- ==== Sys2Proof/WellFormed.lean ====
section
/-! DEFINITION. Which terms of `Instr` are instructions: the two places where a field of a constructor
may hold a value that the spec gives to another row (log 17). -/

namespace Sys2Proof

/-- The 41 supported character codes (R53): space, `#`, `*`, `/`, the digits, `?` and the capital letters. -/
def supportedCode (c : Byte) : Bool :=
  c == 0x20#8 || c == 0x23#8 || c == 0x2A#8 || c == 0x2F#8 || c == 0x3F#8
    || (decide (0x30 ≤ c.toNat) && decide (c.toNat ≤ 0x39))
    || (decide (0x41 ≤ c.toNat) && decide (c.toNat ≤ 0x5A))

/-- FALLBACK stands for a byte that is none of the 41 codes (R54, R106) and, in a message, not the
terminator (R60); PAT_4 with the elements `1111` is PAT_SPACE (R47, R48). Every other term is an
instruction. -/
def Instr.wellFormed : Instr → Bool
  | .fallback c => !supportedCode c && c != Machine.msgTerm
  | .pat4 e => e != 0b1111#4
  | .chA | .chB | .chC | .chD | .chE | .chF | .chG | .chH | .chI | .chJ | .chK | .chL | .chM
  | .chN | .chO | .chP | .chQ | .chR | .chS | .chT | .chU | .chV | .chW | .chX | .chY | .chZ
  | .dig0 | .dig1 | .dig2 | .dig3 | .dig4 | .dig5 | .dig6 | .dig7 | .dig8 | .dig9 | .space
  | .slash | .question | .star | .hash | .msgTerm | .patSpace | .pat1 _ | .pat2 _ | .pat3 _
  | .pat5 _ | .pat6 _ | .pat0 | .patNoStart | .pat7 _ | .nop | .play | .send | .reserved => true

end Sys2Proof
end

