-- ==== Sys2Proof/Decode.lean ====
section
/-! DEFINITION. The decoder of the three formats (30_encoding.md R45 to R60), the encoder, and the
host's reading of a bare word of the opcode table. -/

namespace Sys2Proof

open Machine

/-! ## CHAR8 -/

/-- The letters' codes (R53, R65 to R90). -/
def letterRows : List (Byte × Instr) :=
  [(0x41#8, .chA), (0x42#8, .chB), (0x43#8, .chC), (0x44#8, .chD), (0x45#8, .chE),
   (0x46#8, .chF), (0x47#8, .chG), (0x48#8, .chH), (0x49#8, .chI), (0x4A#8, .chJ),
   (0x4B#8, .chK), (0x4C#8, .chL), (0x4D#8, .chM), (0x4E#8, .chN), (0x4F#8, .chO),
   (0x50#8, .chP), (0x51#8, .chQ), (0x52#8, .chR), (0x53#8, .chS), (0x54#8, .chT),
   (0x55#8, .chU), (0x56#8, .chV), (0x57#8, .chW), (0x58#8, .chX), (0x59#8, .chY), (0x5A#8, .chZ)]

/-- The digits' codes (R53, R91 to R100). -/
def digitRows : List (Byte × Instr) :=
  [(0x30#8, .dig0), (0x31#8, .dig1), (0x32#8, .dig2), (0x33#8, .dig3), (0x34#8, .dig4),
   (0x35#8, .dig5), (0x36#8, .dig6), (0x37#8, .dig7), (0x38#8, .dig8), (0x39#8, .dig9)]

/-- The codes of space, `/`, `?` and the two prosigns (R53, R101 to R105). -/
def punctuationRows : List (Byte × Instr) :=
  [(0x20#8, .space), (0x2F#8, .slash), (0x3F#8, .question), (0x2A#8, .star), (0x23#8, .hash)]

/-- The 41 rows that match all eight bits (R54). -/
def charRows : List (Byte × Instr) := letterRows ++ (digitRows ++ punctuationRows)

/-- A byte of a message, in the order of tests of R60: the terminator, the 41 codes, the fallback. -/
def decodeChar (c : Byte) : Instr :=
  if c = msgTerm then .msgTerm
  else match charRows.lookup c with
    | some i => i
    | none => .fallback c

/-! ## PAT8 -/

/-- A pattern byte by the layouts of R47: the sentinel first (R48, R112), then the row whose start bit
is the first 0 from bit 7 down (R50, R113); a byte of all ones has none (R56). -/
def decodePat (p : Byte) : Instr :=
  if p = spacePattern then .patSpace
  else if p.getLsbD 7 = false then .pat7 (p.setWidth 7)
  else if p.getLsbD 6 = false then .pat6 (p.setWidth 6)
  else if p.getLsbD 5 = false then .pat5 (p.setWidth 5)
  else if p.getLsbD 4 = false then .pat4 (p.setWidth 4)
  else if p.getLsbD 3 = false then .pat3 (p.setWidth 3)
  else if p.getLsbD 2 = false then .pat2 (p.setWidth 2)
  else if p.getLsbD 1 = false then .pat1 (p.setWidth 1)
  else if p.getLsbD 0 = false then .pat0
  else .patNoStart

/-! ## CMD2 -/

/-- The command on the `CMD` port (R57). -/
def decodeCmd (c : BitVec 2) : Instr :=
  if c = 0b00#2 then .nop
  else if c = 0b01#2 then .play
  else if c = 0b10#2 then .send
  else .reserved

/-! ## Bytes -/

/-- Why a list of bytes holds no word. No word itself is refused: "Every input value at every port has a
defined effect" (R150). -/
inductive Reject where
  /-- there is no byte to read -/
  | noWord
  /-- the byte is no 2-bit command: a bit above bit 1 is set (log 18) -/
  | commandTooWide (b : Byte)
  deriving DecidableEq, Repr

/-- The first word of the bytes, read in the given format, and the bytes after it. -/
def decode : Format → List Byte → Except Reject (Instr × List Byte)
  | _, [] => .error .noWord
  | .char8, c :: rest => .ok (decodeChar c, rest)
  | .pat8, p :: rest => .ok (decodePat p, rest)
  | .cmd2, b :: rest =>
    if b.toNat < 4 then .ok (decodeCmd (b.setWidth 2), rest) else .error (.commandTooWide b)

/-! ## Encoder -/

/-- The word of an instruction in its format, in the low bits of a byte: the code of a character (R53),
the layout of a pattern (R47), the command (R57). -/
def encode : Instr → Byte
  | .chA => 0x41#8
  | .chB => 0x42#8
  | .chC => 0x43#8
  | .chD => 0x44#8
  | .chE => 0x45#8
  | .chF => 0x46#8
  | .chG => 0x47#8
  | .chH => 0x48#8
  | .chI => 0x49#8
  | .chJ => 0x4A#8
  | .chK => 0x4B#8
  | .chL => 0x4C#8
  | .chM => 0x4D#8
  | .chN => 0x4E#8
  | .chO => 0x4F#8
  | .chP => 0x50#8
  | .chQ => 0x51#8
  | .chR => 0x52#8
  | .chS => 0x53#8
  | .chT => 0x54#8
  | .chU => 0x55#8
  | .chV => 0x56#8
  | .chW => 0x57#8
  | .chX => 0x58#8
  | .chY => 0x59#8
  | .chZ => 0x5A#8
  | .dig0 => 0x30#8
  | .dig1 => 0x31#8
  | .dig2 => 0x32#8
  | .dig3 => 0x33#8
  | .dig4 => 0x34#8
  | .dig5 => 0x35#8
  | .dig6 => 0x36#8
  | .dig7 => 0x37#8
  | .dig8 => 0x38#8
  | .dig9 => 0x39#8
  | .space => 0x20#8
  | .slash => 0x2F#8
  | .question => 0x3F#8
  | .star => 0x2A#8
  | .hash => 0x23#8
  | .fallback c => c
  | .msgTerm => 0x00#8
  | .patSpace => 0b11101111#8
  | .pat1 e => 0b1111110#7 ++ e
  | .pat2 e => 0b111110#6 ++ e
  | .pat3 e => 0b11110#5 ++ e
  | .pat4 e => 0b1110#4 ++ e
  | .pat5 e => 0b110#3 ++ e
  | .pat6 e => 0b10#2 ++ e
  | .pat0 => 0b11111110#8
  | .patNoStart => 0b11111111#8
  | .pat7 e => 0b0#1 ++ e
  | .nop => 0b00000000#8
  | .play => 0b00000001#8
  | .send => 0b00000010#8
  | .reserved => 0b00000011#8

/-! ## A bare word of the opcode table (log 12) -/

/-- The format in which the table's most specific row matches a byte: the rows that fix all eight bits
(the sentinel, PAT_0, PAT_NOSTART, the 41 codes, MSG_TERM), then the commands as bytes, then the pattern
rows with element bits. The three formats share their words and the host's question names no format.
DESIGN CHOICE: log 12. -/
def tableFormat (b : Byte) : Format :=
  if b = spacePattern ∨ b = 0xFE#8 ∨ b = 0xFF#8 then .pat8
  else if b = msgTerm ∨ supportedCode b = true then .char8
  else if b.toNat < 4 then .cmd2
  else .pat8

/-- The format of a table word of `nbits` bits: a row of at most two bits is a command. -/
def wordFormat (nbits : Nat) (b : Byte) : Format :=
  if nbits ≤ 2 then .cmd2 else tableFormat b

/-- What the decoder reads from the table word `w` of `nbits` bits. Every word is one byte, so a wider
one is none. -/
def decodeTableWord (nbits w : Nat) : Option Instr :=
  if 8 < nbits ∨ 256 ≤ w then none
  else match decode (wordFormat nbits (BitVec.ofNat 8 w)) [BitVec.ofNat 8 w] with
    | .ok (i, _) => some i
    | .error _ => none

end Sys2Proof
end

