-- ==== Sys2Proof/Machine/CodeTable.lean ====
section
/-! DEFINITION. The Code ROM (20_memory.md R31): the table of 40_code_table.md R62 and its read. -/

namespace Sys2Proof.Machine

/-- The letters' rows, code and pattern (R62, R65 to R90). -/
def letterPatterns : List (Byte × Byte) :=
  [(0x41#8, 0xF9#8), (0x42#8, 0xE8#8), (0x43#8, 0xEA#8), (0x44#8, 0xF4#8), (0x45#8, 0xFC#8),
   (0x46#8, 0xE2#8), (0x47#8, 0xF6#8), (0x48#8, 0xE0#8), (0x49#8, 0xF8#8), (0x4A#8, 0xE7#8),
   (0x4B#8, 0xF5#8), (0x4C#8, 0xE4#8), (0x4D#8, 0xFB#8), (0x4E#8, 0xFA#8), (0x4F#8, 0xF7#8),
   (0x50#8, 0xE6#8), (0x51#8, 0xED#8), (0x52#8, 0xF2#8), (0x53#8, 0xF0#8), (0x54#8, 0xFD#8),
   (0x55#8, 0xF1#8), (0x56#8, 0xE1#8), (0x57#8, 0xF3#8), (0x58#8, 0xE9#8), (0x59#8, 0xEB#8),
   (0x5A#8, 0xEC#8)]

/-- The digits' rows (R62, R91 to R100). -/
def digitPatterns : List (Byte × Byte) :=
  [(0x30#8, 0xDF#8), (0x31#8, 0xCF#8), (0x32#8, 0xC7#8), (0x33#8, 0xC3#8), (0x34#8, 0xC1#8),
   (0x35#8, 0xC0#8), (0x36#8, 0xD0#8), (0x37#8, 0xD8#8), (0x38#8, 0xDC#8), (0x39#8, 0xDE#8)]

/-- The rows of space, `/`, `?` and the two prosigns, whose patterns are parameters (R62, R101 to R105). -/
def punctuationPatterns : List (Byte × Byte) :=
  [(0x20#8, 0xEF#8), (0x2F#8, 0xD2#8), (0x3F#8, 0x8C#8), (0x2A#8, Config.patStar),
   (0x23#8, Config.patHash)]

/-- The 41 rows of the Code Table (R62). -/
def codeTable : List (Byte × Byte) := letterPatterns ++ (digitPatterns ++ punctuationPatterns)

/-- `RomRead(c)`: "the pattern in the row of the table whose code equals `c`, if there is one; otherwise
`0xEF`" (R62, R106). -/
def romRead (c : Byte) : Byte := (codeTable.lookup c).getD spacePattern

end Sys2Proof.Machine
end

