-- ==== Sys2Proof/Machine/State.lean ====
section
/-! DEFINITION. The state of MCE: its eight registers (10_state.md R12), and the environment's side of
the ports as plain data. -/

namespace Sys2Proof.Machine

/-- The controller state (R13). `START` and `DONE` are transient and are not held (R14); codes 6 and 7
are unreachable and do not exist here (log 15). -/
inductive Ctl where
  /-- no call is in progress -/
  | idle
  /-- a DIT is keyed -/
  | sendDit
  /-- a DAH is keyed -/
  | sendDah
  /-- the silence after an element -/
  | sendInterElement
  /-- the silence of the space special case -/
  | spaceWait
  /-- the Message Sender's delay after a character -/
  | charGap
  deriving DecidableEq, Repr

/-- The encoding of `ctl` (R13). It is "observable at no port". -/
def Ctl.code : Ctl → BitVec 3
  | .idle => 0
  | .sendDit => 1
  | .sendDah => 2
  | .sendInterElement => 3
  | .spaceWait => 4
  | .charGap => 5

/-- Which call is in progress (R15). -/
inductive Mode where
  /-- a PLAY call -/
  | char
  /-- a SEND call -/
  | msg
  deriving DecidableEq, Repr

/-- The encoding of `mode` (R15). -/
def Mode.code : Mode → BitVec 1
  | .char => 0
  | .msg => 1

/-- The levels of the input ports (R22) in one clock cycle, sampled at the edge that ends it. `clk` is
the step itself (log 1) and `MSG_DATA` is the memory's answer (log 8). -/
structure Ports where
  /-- synchronous reset, active high -/
  rst : Bool
  /-- the clock `NOW`, in ticks -/
  now : Tick
  /-- the command -/
  cmd : BitVec 2
  /-- the dit duration for the command being issued -/
  unitIn : Duration
  /-- operand of PLAY -/
  patIn : Byte
  /-- operand of SEND -/
  msgBase : Addr
  /-- the character code at the lookup port -/
  romChar : Byte
  /-- the pattern at the decoder port -/
  decPat : Byte
  deriving DecidableEq, Repr

/-- One clock cycle of the environment: the writes it makes to the message memory at the cycle's start
and the levels it drives (log 1, log 8). -/
structure EnvCycle where
  /-- the levels on the ports -/
  ports : Ports
  /-- bytes stored in the message memory before the edge -/
  writes : List (Addr × Byte)
  deriving DecidableEq, Repr

/-- The bytes of the message memory that the environment has stored (R32): addresses strictly rising, no
entry equal to `Config.unlistedByte` (`memWf`). -/
abbrev Memory := List Host.Cell

/-- The eight registers, then the environment's side of the ports. -/
@[ext]
structure State where
  /-- the controller state (R13) -/
  ctl : Ctl
  /-- which call is in progress (R15) -/
  mode : Mode
  /-- the MorsePattern of the character being played (R16) -/
  pattern : Byte
  /-- the bit index, in `pattern`, of the element being sent (R17) -/
  idx : BitVec 3
  /-- the dit duration of the call, in ticks (R18) -/
  unit : Duration
  /-- the value of `NOW` at which the waiting state expires (R19) -/
  deadline : Tick
  /-- `msg_ptr`: the address of the next message byte, the program counter (R20) -/
  msgPtr : Addr
  /-- the tone is keyed on (R21) -/
  tone : Bool
  /-- the levels on the input ports in this clock cycle (R22) -/
  ports : Ports
  /-- what the environment drives in the clock cycles to come (log 1) -/
  script : List EnvCycle
  /-- the message memory (R32) -/
  mem : Memory
  deriving DecidableEq, Repr

/-- Why the machine stops: never. "A model's step function for MCE therefore has one outcome, the next
state; it has no fault outcome" (R150; log 20). It has no constructor. -/
inductive Fault where
  deriving DecidableEq, Repr

/-- Why an instruction has no meaning. -/
inductive Refusal where
  /-- Raised by an arm of `exec` whose instruction has no meaning yet; no arm does. Safe: a claim about
  a refused instruction cannot be proved. -/
  | notModelled (mnemonic : String)
  deriving DecidableEq, Repr

/-- Write `ctl`. -/
def State.setCtl (s : State) (v : Ctl) : State := { s with ctl := v }

/-- Write `mode`. -/
def State.setMode (s : State) (v : Mode) : State := { s with mode := v }

/-- Write `pattern`. -/
def State.setPattern (s : State) (v : Byte) : State := { s with pattern := v }

/-- Write `idx`. -/
def State.setIdx (s : State) (v : BitVec 3) : State := { s with idx := v }

/-- Write `unit`. -/
def State.setUnit (s : State) (v : Duration) : State := { s with unit := v }

/-- Write `deadline`. -/
def State.setDeadline (s : State) (v : Tick) : State := { s with deadline := v }

/-- Write `msgPtr`. -/
def State.setMsgPtr (s : State) (v : Addr) : State := { s with msgPtr := v }

/-- Write `tone`. -/
def State.setTone (s : State) (v : Bool) : State := { s with tone := v }

/-- Write `ports`. -/
def State.setPorts (s : State) (v : Ports) : State := { s with ports := v }

/-- Write `script`. -/
def State.setScript (s : State) (v : List EnvCycle) : State := { s with script := v }

/-- Write `mem`. -/
def State.setMem (s : State) (v : Memory) : State := { s with mem := v }

/-- Every input port low. -/
def Ports.low : Ports :=
  { rst := false, now := 0, cmd := 0, unitIn := 0, patIn := 0, msgBase := 0, romChar := 0, decPat := 0 }

/-- The machine right after reset: the registers of the table of R26; the ports low, nothing scripted
and nothing stored (DESIGN CHOICE, log 6 and log 7). -/
def State.reset : State :=
  { ctl := .idle, mode := .char, pattern := 0xEF#8, idx := 0, unit := 0, deadline := 0, msgPtr := 0
    tone := false, ports := Ports.low, script := [], mem := [] }

end Sys2Proof.Machine
end

