-- ==== Sys2Proof/Machine/Flags.lean ====
section
/-! DEFINITION. The one flag of MCE, `tone` (10_state.md R21), and the two levels it and `ctl` show. -/

namespace Sys2Proof.Machine

/-- "Start the tone output" (R122). -/
def State.keyOn (s : State) : State := s.setTone true

/-- "Stop the tone" (R123). -/
def State.keyOff (s : State) : State := s.setTone false

/-- The output `TONE_ON = tone` (R24). -/
def toneOn (s : State) : Bool := s.tone

/-- The output `BUSY = (ctl != IDLE)` (R24). -/
def busy (s : State) : Bool := s.ctl != .idle

end Sys2Proof.Machine
end

