-- ==== Sys2Proof/Machine/Operands.lean ====
section
/-! DEFINITION. The element operands of a MorsePattern: the helper functions of 00_scope.md R10, the
Pattern Decoder of 41_pattern_decoder.md R111 to R115, the encoding of a dot/dash string
(30_encoding.md R51), and the deadline arithmetic (42_element_player.md R117, R118). -/

namespace Sys2Proof.Machine

/-- "One DIT or DAH within a character's pattern" (R11). -/
inductive Element where
  /-- the short element -/
  | dit
  /-- the long element -/
  | dah
  deriving DecidableEq, Repr

/-- `units(e)` (R10). -/
def Element.units : Element → Nat
  | .dit => ditUnits
  | .dah => dahUnits

/-- The element bit: "`0` = DIT, `1` = DAH" (R46). -/
def Element.bit : Element → Bool
  | .dit => false
  | .dah => true

/-- `is_space(p)` (R10, R112). -/
def isSpace (p : Byte) : Bool := p == spacePattern

/-- The highest position below `n` whose bit is 0: the scan of R113 from position `n - 1` downward. -/
def scanStart (p : Byte) : Nat → Option Nat
  | 0 => none
  | i + 1 => if p.getLsbD i = false then some i else scanStart p i

/-- `startpos(p)`: "the largest `i` in 7..0 with `p[i] == 0`, or `none`" (R10, R113). -/
def startPos (p : Byte) : Option Nat := scanStart p 8

/-- `nelem(p)`: 0 for the sentinel and where there is no start bit, else the start bit's position (R10, R115). -/
def nelem (p : Byte) : Nat := if isSpace p then 0 else (startPos p).getD 0

/-- `elem(p, i)` (R10, R114). -/
def elem (p : Byte) (i : Nat) : Element := if p.getLsbD i = false then .dit else .dah

/-- The elements at the positions below `n`, the highest first. -/
def elementsBelow (p : Byte) : Nat → List Element
  | 0 => []
  | i + 1 => elem p i :: elementsBelow p i

/-- `elements_of(p)` (R10, R111): positions `nelem(p) - 1` down to 0. -/
def elementsOf (p : Byte) : List Element := elementsBelow p (nelem p)

/-- One more element at the low end of a pattern: the start bit and the elements before it move up. -/
def appendElement (p : Byte) (e : Element) : Byte := (p <<< 1) ||| (BitVec.ofBool e.bit).setWidth 8

/-- `enc(s)` (R51): padding ones, the start bit, then one bit per element. -/
def enc (s : List Element) : Byte := s.foldl appendElement 0xFE#8

/-- `D`, the summed duration of the elements in units (R110, R128). -/
def totalUnits (es : List Element) : Nat := (es.map Element.units).sum

/-- `dl(now, n, u) = (now + n × u) mod 2^W_T`, the product exact (R117). -/
def dl (now : Tick) (n : Nat) (u : Duration) : Tick := now + BitVec.ofNat 32 (n * u.toNat)

/-- `expired(now, d)`: `now >= d` as unsigned integers (R118; 90_conflicts.md C1). -/
def expired (now d : Tick) : Bool := decide (d.toNat ≤ now.toNat)

end Sys2Proof.Machine
end

