-- ==== Sys2Proof/Machine/Ops.lean ====
section
/-! DEFINITION. The named operations: the message memory (20_memory.md R32 to R39), the procedures of the
Element Player and the Message Sender that are evaluated inside one edge (42_element_player.md R120 to
R125, 43_message_sender.md R133), and the reset (70_reset_and_hazards.md R163), the one event that
redirects MCE from outside. MCE has no exception to take and none to return from (60_exceptions.md R150,
R155, R156). Inside an edge the procedures run one after another, each on what the one before left
(log 9). -/

namespace Sys2Proof.Machine

/-! ## The message memory -/

/-- The byte stored at an address (R32). An address that is not listed reads as `Config.unlistedByte` (log 7). -/
def memRead : Memory → Nat → Byte
  | [], _ => Config.unlistedByte
  | (k, v) :: m, a => if k = a then v else memRead m a

/-- The environment stores a byte. Storing what an unlisted address reads as removes the entry. -/
def memWrite : Memory → Nat → Byte → Memory
  | [], a, b => if b = Config.unlistedByte then [] else [(a, b)]
  | (k, v) :: m, a, b =>
    if a < k then (if b = Config.unlistedByte then (k, v) :: m else (a, b) :: (k, v) :: m)
    else if a = k then (if b = Config.unlistedByte then m else (a, b) :: m)
    else (k, v) :: memWrite m a b

/-- Every address of the memory is above `a`. -/
def memAbove (a : Nat) : Memory → Bool
  | [] => true
  | (k, _) :: _ => decide (a < k)

/-- The canonical form: addresses strictly rising and inside the 65536 bytes of R32, and no entry that
says what an unlisted address says. -/
def memWf : Memory → Bool
  | [] => true
  | (k, v) :: m => decide (k < 65536) && (v != Config.unlistedByte) && memAbove k m && memWf m

/-- The writes of one clock cycle of the environment, in order. -/
def memWriteAll (m : Memory) (ws : List (Addr × Byte)) : Memory :=
  ws.foldl (fun m w => memWrite m w.1.toNat w.2) m

/-- The output `MSG_ADDR` (R24, R34): `MSG_BASE` while idle, else `msg_ptr`, whatever `mode` is. -/
def msgAddr (s : State) : Addr := if s.ctl = .idle then s.ports.msgBase else s.msgPtr

/-- `MsgRead(a)` (R33). -/
def msgRead (s : State) (a : Addr) : Byte := memRead s.mem a.toNat

/-- The input `MSG_DATA`: the byte stored at the address that MCE drives in the same cycle (R33; log 8). -/
def msgData (s : State) : Byte := msgRead s (msgAddr s)

/-! ## The Element Player -/

/-- Enter a waiting state that lasts until `d`. -/
def State.await (s : State) (c : Ctl) (d : Tick) : State := (s.setDeadline d).setCtl c

/-- `DONE`, the procedure `FinishChar(m, u, now)` (R125). -/
def State.finishChar (s : State) (m : Mode) (u : Duration) (now : Tick) : State :=
  match m with
  | .char => s.setCtl .idle
  | .msg => s.await .charGap (dl now charGapUnits u)

/-- `START`, the procedure `StartElem(P, i, u, now)` (R122). -/
def State.startElem (s : State) (p : Byte) (i : Nat) (u : Duration) (now : Tick) : State :=
  match elem p i with
  | .dit => s.keyOn.await .sendDit (dl now ditUnits u)
  | .dah => s.keyOn.await .sendDah (dl now dahUnits u)

/-- The procedure `BeginChar(P, m, u, now)`: the space branch (R120), the patterns without an element
(R130 (a)) and the element branch (R121). -/
def State.beginChar (s : State) (p : Byte) (m : Mode) (u : Duration) (now : Tick) : State :=
  if isSpace p then (s.setPattern p).await .spaceWait (dl now spaceUnits u)
  else if nelem p = 0 then (s.setPattern p).finishChar m u now
  else ((s.setPattern p).setIdx (BitVec.ofNat 3 (nelem p - 1))).startElem p (nelem p - 1) u now

/-- A pattern of the call that the registers describe (log 10). -/
def State.playPattern (s : State) (p : Byte) : State := s.beginChar p s.mode s.unit s.ports.now

/-! ## The Message Sender -/

/-- What `Fetch` does with a character at address `a` whose pattern is `p` (R133): `msg_ptr` passes it,
modulo 2^16 (R39), and the character begins. -/
def State.playSymbol (s : State) (p : Byte) (a : Addr) (u : Duration) (now : Tick) : State :=
  (s.setMsgPtr (a + 1)).beginChar p .msg u now

/-- The character of code `c`, fetched at `msg_ptr` in the call that the registers describe (R64, R133). -/
def State.playCode (s : State) (c : Byte) : State := s.playSymbol (romRead c) s.msgPtr s.unit s.ports.now

/-- The end of a message (R135): the call returns and nothing else changes. -/
def State.endMessage (s : State) : State := s.setCtl .idle

/-- `Fetch(a, u, now)` (R133): fetch, test for the end, look up, play. -/
def State.fetch (s : State) (a : Addr) (u : Duration) (now : Tick) : State :=
  if msgRead s a = msgTerm then s.endMessage
  else s.playSymbol (romRead (msgRead s a)) a u now

/-! ## Accepting a command -/

/-- What PLAY latches before its character begins (R143, R145). -/
def State.latchPlay (s : State) : State := (s.setMode .char).setUnit s.ports.unitIn

/-- What SEND latches before its first fetch (R144, R145). -/
def State.latchSend (s : State) : State :=
  ((s.setMode .msg).setUnit s.ports.unitIn).setMsgPtr s.ports.msgBase

/-! ## Reset -/

/-- The reset operation (R163): every register takes the value of the table of R26, nothing else happens. -/
def State.resetRegisters (s : State) : State :=
  { s with ctl := .idle, mode := .char, pattern := 0xEF#8, idx := 0, unit := 0, deadline := 0, msgPtr := 0, tone := false }

/-! ## The environment between two edges -/

/-- The ports of an environment that has nothing scripted: no reset, no command, the clock one tick
further, the rest held. It is the convention of 95_test_vectors.md ("`NOW` advances by exactly 1 per
edge", "the command is presented for one edge only"). DESIGN CHOICE, log 1. -/
def Ports.coast (p : Ports) : Ports := { p with rst := false, cmd := 0b00#2, now := p.now + 1 }

/-- The next clock cycle: the environment makes its writes and drives its levels (log 1, log 8). -/
def State.nextCycle (s : State) : State :=
  match s.script with
  | [] => s.setPorts s.ports.coast
  | c :: cs => ((s.setScript cs).setMem (memWriteAll s.mem c.writes)).setPorts c.ports

end Sys2Proof.Machine
end

