-- ==== Sys2Proof/Machine/Commands.lean ====
section
/-! DEFINITION. The commands (44_commands_and_step.md R141 to R146). `CMD` is examined only while
`ctl == IDLE`; a command presented during a call is ignored and lost (43_message_sender.md R139; log 11). -/

namespace Sys2Proof.Machine

/-- NOP "change[s] no register" (R142). -/
def execNop (s : State) : Host.Outcome State Fault Refusal := .next s

/-- The reserved command "raises nothing and sets no flag" (R142): it is NOP. -/
def execReserved (s : State) : Host.Outcome State Fault Refusal := .next s

/-- PLAY (R143): `mode <- CHAR; unit <- UNIT_IN; BeginChar(PAT_IN, CHAR, UNIT_IN, NOW)`. -/
def execPlay (s : State) : Host.Outcome State Fault Refusal :=
  .next (if s.ctl = .idle then s.latchPlay.beginChar s.ports.patIn .char s.ports.unitIn s.ports.now else s)

/-- SEND (R144): `mode <- MSG; unit <- UNIT_IN; msg_ptr <- MSG_BASE; Fetch(MSG_BASE, UNIT_IN, NOW)`. -/
def execSend (s : State) : Host.Outcome State Fault Refusal :=
  .next (if s.ctl = .idle then s.latchSend.fetch s.ports.msgBase s.ports.unitIn s.ports.now else s)

end Sys2Proof.Machine
end

