-- ==== Sys2Proof/Machine/Digits.lean ====
section
/-! DEFINITION. The digits of the Code Table (40_code_table.md R91 to R100). -/

namespace Sys2Proof.Machine

/-- `0`, code `0x30`: the elements `-----` (R91). -/
def execDig0 (s : State) : Host.Outcome State Fault Refusal := .next (s.playCode 0x30#8)

/-- `1`, code `0x31`: the elements `.----` (R92). -/
def execDig1 (s : State) : Host.Outcome State Fault Refusal := .next (s.playCode 0x31#8)

/-- `2`, code `0x32`: the elements `..---` (R93). -/
def execDig2 (s : State) : Host.Outcome State Fault Refusal := .next (s.playCode 0x32#8)

/-- `3`, code `0x33`: the elements `...--` (R94). -/
def execDig3 (s : State) : Host.Outcome State Fault Refusal := .next (s.playCode 0x33#8)

/-- `4`, code `0x34`: the elements `....-` (R95). -/
def execDig4 (s : State) : Host.Outcome State Fault Refusal := .next (s.playCode 0x34#8)

/-- `5`, code `0x35`: the elements `.....` (R96). -/
def execDig5 (s : State) : Host.Outcome State Fault Refusal := .next (s.playCode 0x35#8)

/-- `6`, code `0x36`: the elements `-....` (R97). -/
def execDig6 (s : State) : Host.Outcome State Fault Refusal := .next (s.playCode 0x36#8)

/-- `7`, code `0x37`: the elements `--...` (R98). -/
def execDig7 (s : State) : Host.Outcome State Fault Refusal := .next (s.playCode 0x37#8)

/-- `8`, code `0x38`: the elements `---..` (R99). -/
def execDig8 (s : State) : Host.Outcome State Fault Refusal := .next (s.playCode 0x38#8)

/-- `9`, code `0x39`: the elements `----.` (R100). -/
def execDig9 (s : State) : Host.Outcome State Fault Refusal := .next (s.playCode 0x39#8)

end Sys2Proof.Machine
end

