-- ==== Sys2Proof/Machine/Letters.lean ====
section
/-! DEFINITION. The letters of the Code Table (40_code_table.md R64 to R90): each is fetched from a
message and played through its row of the table. -/

namespace Sys2Proof.Machine

/-- `A`, code `0x41`: the elements `.-` (R65). -/
def execChA (s : State) : Host.Outcome State Fault Refusal := .next (s.playCode 0x41#8)

/-- `B`, code `0x42`: the elements `-...` (R66). -/
def execChB (s : State) : Host.Outcome State Fault Refusal := .next (s.playCode 0x42#8)

/-- `C`, code `0x43`: the elements `-.-.` (R67). -/
def execChC (s : State) : Host.Outcome State Fault Refusal := .next (s.playCode 0x43#8)

/-- `D`, code `0x44`: the elements `-..` (R68). -/
def execChD (s : State) : Host.Outcome State Fault Refusal := .next (s.playCode 0x44#8)

/-- `E`, code `0x45`: the elements `.` (R69). -/
def execChE (s : State) : Host.Outcome State Fault Refusal := .next (s.playCode 0x45#8)

/-- `F`, code `0x46`: the elements `..-.` (R70). -/
def execChF (s : State) : Host.Outcome State Fault Refusal := .next (s.playCode 0x46#8)

/-- `G`, code `0x47`: the elements `--.` (R71). -/
def execChG (s : State) : Host.Outcome State Fault Refusal := .next (s.playCode 0x47#8)

/-- `H`, code `0x48`: the elements `....` (R72). -/
def execChH (s : State) : Host.Outcome State Fault Refusal := .next (s.playCode 0x48#8)

/-- `I`, code `0x49`: the elements `..` (R73). -/
def execChI (s : State) : Host.Outcome State Fault Refusal := .next (s.playCode 0x49#8)

/-- `J`, code `0x4A`: the elements `.---` (R74). -/
def execChJ (s : State) : Host.Outcome State Fault Refusal := .next (s.playCode 0x4A#8)

/-- `K`, code `0x4B`: the elements `-.-` (R75). -/
def execChK (s : State) : Host.Outcome State Fault Refusal := .next (s.playCode 0x4B#8)

/-- `L`, code `0x4C`: the elements `.-..` (R76). -/
def execChL (s : State) : Host.Outcome State Fault Refusal := .next (s.playCode 0x4C#8)

/-- `M`, code `0x4D`: the elements `--` (R77). -/
def execChM (s : State) : Host.Outcome State Fault Refusal := .next (s.playCode 0x4D#8)

/-- `N`, code `0x4E`: the elements `-.` (R78). -/
def execChN (s : State) : Host.Outcome State Fault Refusal := .next (s.playCode 0x4E#8)

/-- `O`, code `0x4F`: the elements `---` (R79). -/
def execChO (s : State) : Host.Outcome State Fault Refusal := .next (s.playCode 0x4F#8)

/-- `P`, code `0x50`: the elements `.--.` (R80). -/
def execChP (s : State) : Host.Outcome State Fault Refusal := .next (s.playCode 0x50#8)

/-- `Q`, code `0x51`: the elements `--.-` (R81). -/
def execChQ (s : State) : Host.Outcome State Fault Refusal := .next (s.playCode 0x51#8)

/-- `R`, code `0x52`: the elements `.-.` (R82). -/
def execChR (s : State) : Host.Outcome State Fault Refusal := .next (s.playCode 0x52#8)

/-- `S`, code `0x53`: the elements `...` (R83). -/
def execChS (s : State) : Host.Outcome State Fault Refusal := .next (s.playCode 0x53#8)

/-- `T`, code `0x54`: the elements `-` (R84). -/
def execChT (s : State) : Host.Outcome State Fault Refusal := .next (s.playCode 0x54#8)

/-- `U`, code `0x55`: the elements `..-` (R85). -/
def execChU (s : State) : Host.Outcome State Fault Refusal := .next (s.playCode 0x55#8)

/-- `V`, code `0x56`: the elements `...-` (R86). -/
def execChV (s : State) : Host.Outcome State Fault Refusal := .next (s.playCode 0x56#8)

/-- `W`, code `0x57`: the elements `.--` (R87). -/
def execChW (s : State) : Host.Outcome State Fault Refusal := .next (s.playCode 0x57#8)

/-- `X`, code `0x58`: the elements `-..-` (R88). -/
def execChX (s : State) : Host.Outcome State Fault Refusal := .next (s.playCode 0x58#8)

/-- `Y`, code `0x59`: the elements `-.--` (R89). -/
def execChY (s : State) : Host.Outcome State Fault Refusal := .next (s.playCode 0x59#8)

/-- `Z`, code `0x5A`: the elements `--..` (R90). -/
def execChZ (s : State) : Host.Outcome State Fault Refusal := .next (s.playCode 0x5A#8)

end Sys2Proof.Machine
end

