-- ==== Sys2Proof/Machine/Patterns.lean ====
section
/-! DEFINITION. The patterns (30_encoding.md R46 to R52): each begins a character in the Element Player
(42_element_player.md R120 to R122, R130), under the call whose mode and unit the registers hold (log 10). -/

namespace Sys2Proof.Machine

/-- `PAT_SPACE`, `11101111`: the space sentinel: four silent units (R112, R120). -/
def execPatSpace (s : State) : Host.Outcome State Fault Refusal := .next (s.playPattern 0b11101111#8)

/-- `PAT_1`, layout `1111110a`: 1 element, first element in the highest bit (R47, R49, R114). -/
def execPat1 (e : BitVec 1) (s : State) : Host.Outcome State Fault Refusal := .next (s.playPattern (0b1111110#7 ++ e))

/-- `PAT_2`, layout `111110ab`: 2 elements, first element in the highest bit (R47, R49, R114). -/
def execPat2 (e : BitVec 2) (s : State) : Host.Outcome State Fault Refusal := .next (s.playPattern (0b111110#6 ++ e))

/-- `PAT_3`, layout `11110abc`: 3 elements, first element in the highest bit (R47, R49, R114). -/
def execPat3 (e : BitVec 3) (s : State) : Host.Outcome State Fault Refusal := .next (s.playPattern (0b11110#5 ++ e))

/-- `PAT_4`, layout `1110abcd`: 4 elements, first element in the highest bit (R47, R49, R114). -/
def execPat4 (e : BitVec 4) (s : State) : Host.Outcome State Fault Refusal := .next (s.playPattern (0b1110#4 ++ e))

/-- `PAT_5`, layout `110abcde`: 5 elements, first element in the highest bit (R47, R49, R114). -/
def execPat5 (e : BitVec 5) (s : State) : Host.Outcome State Fault Refusal := .next (s.playPattern (0b110#3 ++ e))

/-- `PAT_6`, layout `10abcdef`: 6 elements, first element in the highest bit (R47, R49, R114). -/
def execPat6 (e : BitVec 6) (s : State) : Host.Outcome State Fault Refusal := .next (s.playPattern (0b10#2 ++ e))

/-- `PAT_0`, `11111110`: a start bit and no element: done at once (R130 (a)). -/
def execPat0 (s : State) : Host.Outcome State Fault Refusal := .next (s.playPattern 0b11111110#8)

/-- `PAT_NOSTART`, `11111111`: no start bit: done at once (R130 (a)). -/
def execPatNoStart (s : State) : Host.Outcome State Fault Refusal := .next (s.playPattern 0b11111111#8)

/-- `PAT_7`, layout `0abcdefg`: 7 elements, first element in the highest bit (R47, R49, R130). -/
def execPat7 (e : BitVec 7) (s : State) : Host.Outcome State Fault Refusal := .next (s.playPattern (0b0#1 ++ e))

end Sys2Proof.Machine
end

