-- ==== Sys2Proof/Machine/Punctuation.lean ====
section
/-! DEFINITION. Space, `/`, `?`, the two prosigns, the fallback and the terminator
(40_code_table.md R101 to R106, 43_message_sender.md R135). -/

namespace Sys2Proof.Machine

/-- `SPACE`, code `0x20`: the sentinel, four silent units (R101). -/
def execSpace (s : State) : Host.Outcome State Fault Refusal := .next (s.playCode 0x20#8)

/-- `/`, code `0x2F`: the elements `-..-.` (R102). -/
def execSlash (s : State) : Host.Outcome State Fault Refusal := .next (s.playCode 0x2F#8)

/-- `?`, code `0x3F`: the elements `..--..` (R103). -/
def execQuestion (s : State) : Host.Outcome State Fault Refusal := .next (s.playCode 0x3F#8)

/-- `*`, code `0x2A`: the pattern is the parameter `PAT_STAR` (R104). -/
def execStar (s : State) : Host.Outcome State Fault Refusal := .next (s.playCode 0x2A#8)

/-- `#`, code `0x23`: the pattern is the parameter `PAT_HASH` (R105). -/
def execHash (s : State) : Host.Outcome State Fault Refusal := .next (s.playCode 0x23#8)

/-- Any other byte of a message: "exactly those of space", silently (R106, R151). The byte itself is kept nowhere. -/
def execFallback (_c : Byte) (s : State) : Host.Outcome State Fault Refusal := .next (s.playSymbol spacePattern s.msgPtr s.unit s.ports.now)

/-- The terminator: "That byte is fetched, is not looked up, plays nothing and adds no time: the edge that finds
it sets `ctl <- IDLE`" (R135). -/
def execMsgTerm (s : State) : Host.Outcome State Fault Refusal := .next s.endMessage

end Sys2Proof.Machine
end

