-- ==== Sys2Proof/Machine/Dispatch.lean ====
section
/-! DEFINITION. One arm per instruction: the effect of the instruction at the edge that takes it. -/

namespace Sys2Proof.Machine

def exec (i : Instr) (s : State) : Host.Outcome State Fault Refusal :=
  match i with
  | .chA => Sys2Proof.Machine.execChA s
  | .chB => Sys2Proof.Machine.execChB s
  | .chC => Sys2Proof.Machine.execChC s
  | .chD => Sys2Proof.Machine.execChD s
  | .chE => Sys2Proof.Machine.execChE s
  | .chF => Sys2Proof.Machine.execChF s
  | .chG => Sys2Proof.Machine.execChG s
  | .chH => Sys2Proof.Machine.execChH s
  | .chI => Sys2Proof.Machine.execChI s
  | .chJ => Sys2Proof.Machine.execChJ s
  | .chK => Sys2Proof.Machine.execChK s
  | .chL => Sys2Proof.Machine.execChL s
  | .chM => Sys2Proof.Machine.execChM s
  | .chN => Sys2Proof.Machine.execChN s
  | .chO => Sys2Proof.Machine.execChO s
  | .chP => Sys2Proof.Machine.execChP s
  | .chQ => Sys2Proof.Machine.execChQ s
  | .chR => Sys2Proof.Machine.execChR s
  | .chS => Sys2Proof.Machine.execChS s
  | .chT => Sys2Proof.Machine.execChT s
  | .chU => Sys2Proof.Machine.execChU s
  | .chV => Sys2Proof.Machine.execChV s
  | .chW => Sys2Proof.Machine.execChW s
  | .chX => Sys2Proof.Machine.execChX s
  | .chY => Sys2Proof.Machine.execChY s
  | .chZ => Sys2Proof.Machine.execChZ s
  | .dig0 => Sys2Proof.Machine.execDig0 s
  | .dig1 => Sys2Proof.Machine.execDig1 s
  | .dig2 => Sys2Proof.Machine.execDig2 s
  | .dig3 => Sys2Proof.Machine.execDig3 s
  | .dig4 => Sys2Proof.Machine.execDig4 s
  | .dig5 => Sys2Proof.Machine.execDig5 s
  | .dig6 => Sys2Proof.Machine.execDig6 s
  | .dig7 => Sys2Proof.Machine.execDig7 s
  | .dig8 => Sys2Proof.Machine.execDig8 s
  | .dig9 => Sys2Proof.Machine.execDig9 s
  | .space => Sys2Proof.Machine.execSpace s
  | .slash => Sys2Proof.Machine.execSlash s
  | .question => Sys2Proof.Machine.execQuestion s
  | .star => Sys2Proof.Machine.execStar s
  | .hash => Sys2Proof.Machine.execHash s
  | .fallback c => Sys2Proof.Machine.execFallback c s
  | .msgTerm => Sys2Proof.Machine.execMsgTerm s
  | .patSpace => Sys2Proof.Machine.execPatSpace s
  | .pat1 e => Sys2Proof.Machine.execPat1 e s
  | .pat2 e => Sys2Proof.Machine.execPat2 e s
  | .pat3 e => Sys2Proof.Machine.execPat3 e s
  | .pat4 e => Sys2Proof.Machine.execPat4 e s
  | .pat5 e => Sys2Proof.Machine.execPat5 e s
  | .pat6 e => Sys2Proof.Machine.execPat6 e s
  | .pat0 => Sys2Proof.Machine.execPat0 s
  | .patNoStart => Sys2Proof.Machine.execPatNoStart s
  | .pat7 e => Sys2Proof.Machine.execPat7 e s
  | .nop => Sys2Proof.Machine.execNop s
  | .play => Sys2Proof.Machine.execPlay s
  | .send => Sys2Proof.Machine.execSend s
  | .reserved => Sys2Proof.Machine.execReserved s

end Sys2Proof.Machine
end

