-- ==== Sys2Proof/Machine/Player.lean ====
section
/-! DEFINITION. The edges at which no instruction is taken: the waiting states of the Element Player
(42_element_player.md R123, R124, R126). -/

namespace Sys2Proof.Machine

/-- What the expiry of SEND_DIT or SEND_DAH does (R123). -/
def State.elementExpiry (s : State) : State :=
  s.keyOff.await .sendInterElement (dl s.ports.now iegUnits s.unit)

/-- What the expiry of SEND_INTER_ELEMENT does: `DONE` after the last element, else `START` on the next
lower bit (R124). -/
def State.gapExpiry (s : State) : State :=
  if s.idx = 0 then s.finishChar s.mode s.unit s.ports.now
  else (s.setIdx (s.idx - 1)).startElem s.pattern (s.idx.toNat - 1) s.unit s.ports.now

/-- What the expiry of SPACE_WAIT does (R126). -/
def State.spaceExpiry (s : State) : State := s.finishChar s.mode s.unit s.ports.now

/-- An edge with `ctl` equal to SEND_DIT or SEND_DAH (R123). -/
def State.elementEdge (s : State) : State := if expired s.ports.now s.deadline then s.elementExpiry else s

/-- An edge with `ctl == SEND_INTER_ELEMENT` (R124). -/
def State.gapEdge (s : State) : State := if expired s.ports.now s.deadline then s.gapExpiry else s

/-- An edge with `ctl == SPACE_WAIT` (R126). -/
def State.spaceEdge (s : State) : State := if expired s.ports.now s.deadline then s.spaceExpiry else s

end Sys2Proof.Machine
end

