-- ==== Sys2Proof/Machine/Edge.lean ====
section
/-! DEFINITION. One rising edge of `clk` (44_commands_and_step.md R140): what the controller does, which
instruction it takes, and how a table word is placed where the next edge takes it. -/

namespace Sys2Proof.Machine

/-- The instruction that an IDLE edge takes: the command on `CMD` (R141). -/
def commandTaken (s : State) : Instr := decodeCmd s.ports.cmd

/-- The instruction that the expiry of CHAR_GAP takes: the byte on `MSG_DATA` (R60, R134). -/
def messageTaken (s : State) : Instr := decodeChar (msgData s)

/-- An edge with `ctl == CHAR_GAP` (R134): on expiry `Fetch(msg_ptr, unit, NOW)`, that is the instruction
at `msg_ptr`. -/
def charGapEdge (s : State) : Host.Outcome State Fault Refusal :=
  if expired s.ports.now s.deadline then exec (messageTaken s) s else .next s

/-- One edge (R140): reset first, then the one rule of the present `ctl`. -/
def edge (s : State) : Host.Outcome State Fault Refusal :=
  if s.ports.rst = true then .next s.resetRegisters
  else match s.ctl with
    | .idle => exec (commandTaken s) s
    | .sendDit => .next s.elementEdge
    | .sendDah => .next s.elementEdge
    | .sendInterElement => .next s.gapEdge
    | .spaceWait => .next s.spaceEdge
    | .charGap => charGapEdge s

/-- After the edge the environment drives the next clock cycle. -/
def thenNextCycle : Host.Outcome State Fault Refusal → Host.Outcome State Fault Refusal
  | .next t => .next t.nextCycle
  | .fault f => .fault f
  | .refused r => .refused r

/-- A one-byte word placed so that the next edge takes it, MCE being idle and not in reset: a command on
`CMD`; a pattern on `PAT_IN` with PLAY; a character at `MSG_BASE` in the message memory with SEND
(log 13). -/
def State.placeWord (s : State) (f : Format) (b : Byte) : State :=
  match f with
  | .cmd2 => (s.setCtl .idle).setPorts { s.ports with rst := false, cmd := b.setWidth 2 }
  | .pat8 => (s.setCtl .idle).setPorts { s.ports with rst := false, cmd := 0b01#2, patIn := b }
  | .char8 =>
    ((s.setCtl .idle).setMem (memWrite s.mem s.ports.msgBase.toNat b)).setPorts
      { s.ports with rst := false, cmd := 0b10#2 }

end Sys2Proof.Machine
end

