-- ==== Sys2Proof/Machine/Step.lean ====
section
/-! DEFINITION. The step: one rising edge of `clk`, then the environment's next clock cycle. -/

namespace Sys2Proof.Machine

/-- `step(state, inputs) = state'` (44_commands_and_step.md R140), the inputs being `ports` and `mem`. -/
def step (s : State) : Host.Outcome State Fault Refusal := thenNextCycle (edge s)

/-- `s` with the table word `w` of `nbits` bits placed where the next edge takes it (log 12, log 13). -/
def State.withFetchWord (s : State) (nbits w : Nat) : State :=
  s.placeWord (wordFormat nbits (BitVec.ofNat 8 w)) (BitVec.ofNat 8 w)

end Sys2Proof.Machine
end

