-- ==== Sys2Proof/Machine/Outputs.lean ====
section
/-! DEFINITION. The output ports that depend on no register (10_state.md R23, R24): the lookup port
(20_memory.md R44) and the decoder port (41_pattern_decoder.md R116). `TONE_ON`, `BUSY` and `MSG_ADDR`
stand in Flags.lean and Ops.lean. -/

namespace Sys2Proof.Machine

/-- `ROM_PAT = lookup(ROM_CHAR)`, whatever `ctl` is (R44). -/
def romPat (s : State) : Byte := romRead s.ports.romChar

/-- `DEC_SPACE`: the pattern is the sentinel (R116). -/
def decSpace (s : State) : Bool := isSpace s.ports.decPat

/-- `DEC_NOSTART`: the pattern has no start bit (R116). -/
def decNoStart (s : State) : Bool := s.ports.decPat == 0xFF#8

/-- `DEC_LEN = nelem(DEC_PAT)` (R116). -/
def decLen (s : State) : BitVec 3 := BitVec.ofNat 3 (nelem s.ports.decPat)

/-- `DEC_ELEMS`: the element bits, right-aligned, zero above them (R116). -/
def decElems (s : State) : BitVec 7 :=
  s.ports.decPat.setWidth 7 &&& BitVec.ofNat 7 (2 ^ nelem s.ports.decPat - 1)

/-- All the outputs of R23 in one clock cycle. -/
structure OutputLevels where
  /-- `TONE_ON` -/
  toneOn : Bool
  /-- `BUSY` -/
  busy : Bool
  /-- `MSG_ADDR` -/
  msgAddr : Addr
  /-- `ROM_PAT` -/
  romPat : Byte
  /-- `DEC_SPACE` -/
  decSpace : Bool
  /-- `DEC_NOSTART` -/
  decNoStart : Bool
  /-- `DEC_LEN` -/
  decLen : BitVec 3
  /-- `DEC_ELEMS` -/
  decElems : BitVec 7
  deriving DecidableEq, Repr

/-- The outputs between two edges as functions of the state (R24). -/
def outputs (s : State) : OutputLevels :=
  { toneOn := toneOn s, busy := busy s, msgAddr := msgAddr s, romPat := romPat s, decSpace := decSpace s
    decNoStart := decNoStart s, decLen := decLen s, decElems := decElems s }

end Sys2Proof.Machine
end

