-- ==== Sys2Proof/Safety.lean ====
section
/-! DEFINITION. The terms in which claims are made: the invariants of 10_state.md R27, the documented
domain of patterns (30_encoding.md R52), what two states share, and the timelines of calls. -/

namespace Sys2Proof.Machine

/-- The documented domain (R52): the sentinel and the patterns of 1 to 6 elements. -/
def documented (p : Byte) : Bool := isSpace p || (p.getLsbD 7 && decide (1 ≤ nelem p))

/-- A waiting state (R11): a value of `ctl` that lasts until a deadline. -/
def Ctl.waiting (c : Ctl) : Bool := c != .idle

/-- A value of `ctl` in which an element of `pattern` is being sent or has just been sent (R27 (c)). -/
def Ctl.sending : Ctl → Bool
  | .sendDit | .sendDah | .sendInterElement => true
  | .idle | .spaceWait | .charGap => false

/-- The invariants of R27, (a) to (e) in order; (f), that `ctl` is never 6 or 7, is the type `Ctl`. -/
structure Controlled (s : State) : Prop where
  tone_iff : s.tone = true ↔ s.ctl = .sendDit ∨ s.ctl = .sendDah
  dit_bit : s.ctl = .sendDit → s.pattern.getLsbD s.idx.toNat = false
  dah_bit : s.ctl = .sendDah → s.pattern.getLsbD s.idx.toNat = true
  sending_pattern : s.ctl.sending = true → s.pattern ≠ 0xEF#8 ∧ 1 ≤ nelem s.pattern ∧ s.idx.toNat < nelem s.pattern
  space_pattern : s.ctl = .spaceWait → s.pattern = 0xEF#8
  gap_mode : s.ctl = .charGap → s.mode = .msg

/-- The eight registers of R12 are the same. -/
structure SameRegisters (s t : State) : Prop where
  ctl : s.ctl = t.ctl
  mode : s.mode = t.mode
  pattern : s.pattern = t.pattern
  idx : s.idx = t.idx
  unit : s.unit = t.unit
  deadline : s.deadline = t.deadline
  msgPtr : s.msgPtr = t.msgPtr
  tone : s.tone = t.tone

/-- The environment's side is the same: the levels on the ports, what is scripted, the message memory. -/
structure SameEnvironment (s t : State) : Prop where
  ports : s.ports = t.ports
  script : s.script = t.script
  mem : s.mem = t.mem

/-- Two states that agree on all that the call in progress still reads (R28): the environment, `ctl` and `tone`
are the same, and so is every register that the call reads before it writes it; what an earlier call left
in the others is free. So `TONE_ON` and `BUSY` are the same, and `MSG_ADDR` is but during a PLAY call, where
it shows the stale `msg_ptr` (R20, R24). -/
structure LooksAlike (s s' : State) : Prop where
  environment : SameEnvironment s s'
  ctl : s.ctl = s'.ctl
  tone : s.tone = s'.tone
  call : s.ctl ≠ .idle → s.mode = s'.mode ∧ s.unit = s'.unit ∧ s.deadline = s'.deadline
  sender : s.ctl ≠ .idle → s.mode = .msg → s.msgPtr = s'.msgPtr
  element : s.ctl.sending = true → s.pattern = s'.pattern ∧ s.idx = s'.idx
  gap_mode : s.ctl = .charGap → s.mode = .msg

/-- The environment's side `k` edges from now (0: at the next edge), with the registers as they are now. What
the environment drives does not depend on the registers (log 1). -/
def State.cycleAt : State → Nat → State
  | s, 0 => s
  | s, k + 1 => s.nextCycle.cycleAt k

/-- The `NOW` that the edge `k` edges from now samples. -/
def State.nowAt (s : State) (k : Nat) : Nat := (s.cycleAt k).ports.now.toNat

/-- The premises of 70_reset_and_hazards.md R175 over the next `m` edges: no reset, and from one edge to the
next `NOW` stands still or is one more, without wrapping. Whatever else the environment does is free. -/
def Steady (s : State) (m : Nat) : Prop :=
  ∀ k, k < m → (s.cycleAt k).ports.rst = false
    ∧ (k ≠ 0 → s.nowAt k = s.nowAt (k - 1) ∨ s.nowAt k = s.nowAt (k - 1) + 1)

/-- The state in which a fetched character has begun whose pattern is `p` and whose first element is `e`
at bit `q` (43_message_sender.md R133, 42_element_player.md R121, R122): what a character writes, and
nothing else. -/
def begun (s : State) (p : Byte) (q : BitVec 3) (e : Element) : State :=
  { s with msgPtr := s.msgPtr + 1, pattern := p, idx := q, tone := true
           deadline := dl s.ports.now e.units s.unit
           ctl := match e with
             | .dit => .sendDit
             | .dah => .sendDah }

/-! ## Timelines (42_element_player.md R128, 43_message_sender.md R137, 70_reset_and_hazards.md R176) -/

/-- A stretch of a call in which `TONE_ON` keeps its level. -/
structure Interval where
  /-- the level of `TONE_ON` -/
  on : Bool
  /-- how long, in units -/
  units : Nat
  deriving DecidableEq, Repr

/-- Each element on for its units, then one silent unit (R128). -/
def elementIntervals (es : List Element) : List Interval := es.flatMap fun e => [⟨true, e.units⟩, ⟨false, 1⟩]

/-- One character: four silent units for the sentinel (R120), else its elements. -/
def characterIntervals (p : Byte) : List Interval :=
  if isSpace p then [⟨false, 4⟩] else elementIntervals (elementsOf p)

/-- A message: each character, then the sender's two silent units (R134, R137). -/
def messageIntervals (cs : List Byte) : List Interval :=
  cs.flatMap fun c => characterIntervals (romRead c) ++ [⟨false, 2⟩]

/-- The summed length in units. -/
def unitsOf (is : List Interval) : Nat := (is.map Interval.units).sum

/-- The level of `TONE_ON` `x` ticks after the intervals begin, with the unit `u`. -/
def toneAt : List Interval → Nat → Nat → Bool
  | [], _, _ => false
  | i :: is, u, x => if x < i.units * u then i.on else toneAt is u (x - i.units * u)

/-- Over the next `m` edges the outputs follow the intervals, counted from the `NOW` of the next edge: after an
edge whose `NOW` lies before their end, `BUSY` is 1 and `TONE_ON` has the interval's level; after the first
edge whose `NOW` is their end, both are 0 (R128, R175). What follows that edge is another call's. -/
def FollowsTimeline (s : State) (m : Nat) (is : List Interval) (u : Nat) : Prop :=
  ∀ k, k < m → ∃ t : State, Sys2Proof.core.run (k + 1) s = .next t
    ∧ (s.nowAt k < s.nowAt 0 + unitsOf is * u → toneOn t = toneAt is u (s.nowAt k - s.nowAt 0) ∧ busy t = true)
    ∧ (s.nowAt k = s.nowAt 0 + unitsOf is * u → (∀ j, j < k → s.nowAt j < s.nowAt 0 + unitsOf is * u) →
        toneOn t = false ∧ busy t = false)

end Sys2Proof.Machine
end

