-- ==== Sys2Proof/Certificates/Slice0/Obligations.lean ====
section
/-! DEFINITION. What is stated of the model, from the numbered rules of spec/. A statement with basis
`derived` that names a log entry rests, in that part, on a choice of the model's. -/

open Sys2Proof Sys2Proof.Machine

/-- For every well-formed instruction, decoding its word in its own format gives the instruction back
and leaves the bytes after it. (30_encoding.md R45 to R60 (formats CHAR8, PAT8, CMD2)) -/
def Obligations.DecodingAnEncodedInstructionGivesItBack : Prop :=
  ∀ (i : Instr) (rest : List Byte), i.wellFormed = true →
    decode i.format (encode i :: rest) = .ok (i, rest)

/-- If decoding bytes in a format gives an instruction and the bytes after it, the instruction is well-
formed, has that format, and the first byte is its encoding. (30_encoding.md R45 to R60 (formats
CHAR8, PAT8, CMD2)) -/
def Obligations.DecodedWordsAreTheirEncodings : Prop :=
  ∀ (f : Format) (bytes rest : List Byte) (i : Instr), decode f bytes = .ok (i, rest) →
    i.wellFormed = true ∧ i.format = f ∧ bytes = encode i :: rest

/-- The codes of S, 0, space, slash, the terminator and an unsupported byte, the patterns 11110010,
11101111, 11111110 and 01010101, and the command 10 decode to the instructions the spec gives them.
(30_encoding.md R47, R53, R57, R60; opcode_table.json) -/
def Obligations.SampleWordsDecodeAsTheSpecWritesThem : Prop :=
  decodeChar 0b01010011#8 = .chS ∧ decodeChar 0b00110000#8 = .dig0 ∧ decodeChar 0b00100000#8 = .space
    ∧ decodeChar 0b00101111#8 = .slash ∧ decodeChar 0b00000000#8 = .msgTerm
    ∧ decodeChar 0b01100001#8 = .fallback 0b01100001#8 ∧ decodePat 0b11110010#8 = .pat3 0b010#3
    ∧ decodePat 0b11101111#8 = .patSpace ∧ decodePat 0b11111110#8 = .pat0
    ∧ decodePat 0b01010101#8 = .pat7 0b1010101#7 ∧ decodeCmd 0b10#2 = .send

/-- For every byte and state: the byte 0x00 ends the message (only ctl changes, to IDLE); any other
supported code begins its own Code Table pattern with msg_ptr advanced; any other byte begins the
space pattern in the same way. (What exec does with a character in every state, by the registers and
the present NOW, is the model's form, log 10.) (30_encoding.md R60; 43_message_sender.md R133; model
choice: notes/assumptions/10.md) -/
def Obligations.MessageByteHasThreeOutcomes : Prop :=
  ∀ (c : Byte) (s : State),
    (c = 0x00#8 → exec (decodeChar c) s = .next { s with ctl := .idle })
    ∧ (c ≠ 0x00#8 → supportedCode c = true → exec (decodeChar c) s =
        .next (State.beginChar { s with msgPtr := s.msgPtr + 1 } (romRead c) .msg s.unit s.ports.now))
    ∧ (c ≠ 0x00#8 → supportedCode c = false → exec (decodeChar c) s =
        .next (State.beginChar { s with msgPtr := s.msgPtr + 1 } 0xEF#8 .msg s.unit s.ports.now))

/-- There are 215 unsupported codes; each looks up 0xEF; each but the terminator is FALLBACK in a
message; FALLBACK does in every state what SPACE does; and @, !, a and space look up the same 0xEF.
(exec in every state is log 10; FALLBACK of a supported code or of the terminator, which is no
instruction, is log 17.) (40_code_table.md R106, R101; model choice: notes/assumptions/10.md, 17.md) -/
def Obligations.UnsupportedCodesPlayAsSpace : Prop :=
  ((List.range 256).filter (fun n => !supportedCode (BitVec.ofNat 8 n))).length = 215
    ∧ (∀ c : Byte, supportedCode c = false → romRead c = 0xEF#8)
    ∧ (∀ c : Byte, supportedCode c = false → c ≠ 0x00#8 → decodeChar c = .fallback c)
    ∧ (∀ (c : Byte) (s : State), exec (.fallback c) s = exec .space s)
    ∧ (∀ c ∈ [0x40#8, 0x21#8, 0x61#8, 0x20#8], romRead c = 0xEF#8)

/-- For each letter, digit, / and ?, the Code Table entry of its code is enc of the dot/dash string of
its row, and its elements spell that string. (40_code_table.md R62, R65 to R100, R102, R103;
95_test_vectors.md V-D2, V-S13) -/
def Obligations.CodeTableSpellsTheMorseStrings : Prop :=
  ∀ r ∈ ([
      (0x41#8, 0xF9#8, [.dit, .dah]),
      (0x42#8, 0xE8#8, [.dah, .dit, .dit, .dit]),
      (0x43#8, 0xEA#8, [.dah, .dit, .dah, .dit]),
      (0x44#8, 0xF4#8, [.dah, .dit, .dit]),
      (0x45#8, 0xFC#8, [.dit]),
      (0x46#8, 0xE2#8, [.dit, .dit, .dah, .dit]),
      (0x47#8, 0xF6#8, [.dah, .dah, .dit]),
      (0x48#8, 0xE0#8, [.dit, .dit, .dit, .dit]),
      (0x49#8, 0xF8#8, [.dit, .dit]),
      (0x4A#8, 0xE7#8, [.dit, .dah, .dah, .dah]),
      (0x4B#8, 0xF5#8, [.dah, .dit, .dah]),
      (0x4C#8, 0xE4#8, [.dit, .dah, .dit, .dit]),
      (0x4D#8, 0xFB#8, [.dah, .dah]),
      (0x4E#8, 0xFA#8, [.dah, .dit]),
      (0x4F#8, 0xF7#8, [.dah, .dah, .dah]),
      (0x50#8, 0xE6#8, [.dit, .dah, .dah, .dit]),
      (0x51#8, 0xED#8, [.dah, .dah, .dit, .dah]),
      (0x52#8, 0xF2#8, [.dit, .dah, .dit]),
      (0x53#8, 0xF0#8, [.dit, .dit, .dit]),
      (0x54#8, 0xFD#8, [.dah]),
      (0x55#8, 0xF1#8, [.dit, .dit, .dah]),
      (0x56#8, 0xE1#8, [.dit, .dit, .dit, .dah]),
      (0x57#8, 0xF3#8, [.dit, .dah, .dah]),
      (0x58#8, 0xE9#8, [.dah, .dit, .dit, .dah]),
      (0x59#8, 0xEB#8, [.dah, .dit, .dah, .dah]),
      (0x5A#8, 0xEC#8, [.dah, .dah, .dit, .dit]),
      (0x30#8, 0xDF#8, [.dah, .dah, .dah, .dah, .dah]),
      (0x31#8, 0xCF#8, [.dit, .dah, .dah, .dah, .dah]),
      (0x32#8, 0xC7#8, [.dit, .dit, .dah, .dah, .dah]),
      (0x33#8, 0xC3#8, [.dit, .dit, .dit, .dah, .dah]),
      (0x34#8, 0xC1#8, [.dit, .dit, .dit, .dit, .dah]),
      (0x35#8, 0xC0#8, [.dit, .dit, .dit, .dit, .dit]),
      (0x36#8, 0xD0#8, [.dah, .dit, .dit, .dit, .dit]),
      (0x37#8, 0xD8#8, [.dah, .dah, .dit, .dit, .dit]),
      (0x38#8, 0xDC#8, [.dah, .dah, .dah, .dit, .dit]),
      (0x39#8, 0xDE#8, [.dah, .dah, .dah, .dah, .dit]),
      (0x2F#8, 0xD2#8, [.dah, .dit, .dit, .dah, .dit]),
      (0x3F#8, 0x8C#8, [.dit, .dit, .dah, .dah, .dit, .dit])] : List (Byte × Byte × List Element)),
    romRead r.1 = r.2.1 ∧ enc r.2.2 = r.2.1 ∧ elementsOf r.2.1 = r.2.2

/-- The table has 41 supported codes; the patterns of the letters, digits, / and ? are pairwise distinct
and none is 0xEF; every entry other than 0xEF has bit 7 set and 1 to 6 elements; and the entries
equal to 0xEF are those of space and of the unsupported codes, whatever PAT_STAR and PAT_HASH are.
(40_code_table.md R107 (a) to (d); 40_code_table.md R62) -/
def Obligations.CodeTableIsInTheDocumentedDomain : Prop :=
  ((List.range 256).filter (fun n => supportedCode (BitVec.ofNat 8 n))).length = 41
    ∧ (∀ c d : Byte, supportedCode c = true → supportedCode d = true →
        c ∉ [0x20#8, 0x2A#8, 0x23#8] → d ∉ [0x20#8, 0x2A#8, 0x23#8] → romRead c = romRead d → c = d)
    ∧ (∀ c : Byte, romRead c ≠ 0xEF#8 →
        (romRead c).getLsbD 7 = true ∧ 1 ≤ nelem (romRead c) ∧ nelem (romRead c) ≤ 6)
    ∧ (∀ c : Byte, romRead c = 0xEF#8 ↔ c = 0x20#8 ∨ supportedCode c = false)

/-- Whatever value PAT_STAR has, it is not 0xEF, its bit 7 is 1, it has 1 to 6 elements, and it lies
between 0x80 and 0xFD (one of the 125 values of the second row of R52). (R108) -/
def Obligations.StarPatternIsAdmissible : Prop :=
  Config.patStar ≠ 0xEF#8 ∧ Config.patStar.getLsbD 7 = true
    ∧ 1 ≤ nelem Config.patStar ∧ nelem Config.patStar ≤ 6
    ∧ 0x80 ≤ Config.patStar.toNat ∧ Config.patStar.toNat ≤ 0xFD

/-- Whatever value PAT_HASH has, it is not 0xEF, its bit 7 is 1, it has 1 to 6 elements, and it lies
between 0x80 and 0xFD (one of the 125 values of the second row of R52). (R109) -/
def Obligations.HashPatternIsAdmissible : Prop :=
  Config.patHash ≠ 0xEF#8 ∧ Config.patHash.getLsbD 7 = true
    ∧ 1 ≤ nelem Config.patHash ∧ nelem Config.patHash ≤ 6
    ∧ 0x80 ≤ Config.patHash.toNat ∧ Config.patHash.toNat ≤ 0xFD

/-- The documented domain is the sentinel and the bytes 0x80 to 0xFD, 126 values; 0xEF is the sentinel
(1); 0x80 to 0xFD without 0xEF have 1 to 6 elements (125); 0xFE has the start bit at 0 and no
element (1); 0xFF has no start bit (1); 0x00 to 0x7F have 7 elements (128). (30_encoding.md R52;
41_pattern_decoder.md R113, R115) -/
def Obligations.PatternBytesClassify : Prop :=
  (∀ p : Byte, (isSpace p = true ↔ p = 0xEF#8)
      ∧ (0x80 ≤ p.toNat → p.toNat ≤ 0xFD → p ≠ 0xEF#8 →
          1 ≤ nelem p ∧ nelem p ≤ 6 ∧ startPos p = some (nelem p))
      ∧ (p = 0xFE#8 → startPos p = some 0 ∧ nelem p = 0)
      ∧ (p = 0xFF#8 → startPos p = none ∧ nelem p = 0)
      ∧ (p.toNat < 0x80 → startPos p = some 7 ∧ nelem p = 7)
      ∧ (documented p = true ↔ 0x80 ≤ p.toNat ∧ p.toNat ≤ 0xFD))
    ∧ ((List.range 256).filter (fun n => documented (BitVec.ofNat 8 n))).length = 126
    ∧ ((List.range 256).filter (fun n => isSpace (BitVec.ofNat 8 n))).length = 1
    ∧ ((List.range 256).filter (fun n => decide (1 ≤ nelem (BitVec.ofNat 8 n) ∧ nelem (BitVec.ofNat 8 n) ≤ 6))).length = 125
    ∧ ((List.range 256).filter (fun n => startPos (BitVec.ofNat 8 n) == some 0)).length = 1
    ∧ ((List.range 256).filter (fun n => startPos (BitVec.ofNat 8 n) == none)).length = 1
    ∧ ((List.range 256).filter (fun n => nelem (BitVec.ofNat 8 n) == 7)).length = 128

/-- For a string of 1 to 6 elements: its encoding has ones above position p, 0 at p, and bit p - j is
the j-th element; unless the string is DAH DAH DAH DAH its elements are read back from the encoding,
and the encoding is the only byte with bit 7 set that reads so; ---- would be 0xEF; every Code Table
entry other than 0xEF is the encoding of its elements. (R51) -/
def Obligations.StringsHaveOnePattern : Prop :=
  (∀ es : List Element, 1 ≤ es.length → es.length ≤ 6 →
      (∀ i, es.length < i → i < 8 → (enc es).getLsbD i = true)
      ∧ (enc es).getLsbD es.length = false
      ∧ (∀ j e, 1 ≤ j → es[j - 1]? = some e → (enc es).getLsbD (es.length - j) = e.bit)
      ∧ (es ≠ [.dah, .dah, .dah, .dah] → elementsOf (enc es) = es
          ∧ ∀ p : Byte, p.getLsbD 7 = true → elementsOf p = es → p = enc es))
    ∧ enc [.dah, .dah, .dah, .dah] = 0xEF#8
    ∧ (∀ c : Byte, romRead c ≠ 0xEF#8 → romRead c = enc (elementsOf (romRead c)))

/-- In every state: DEC_SPACE iff DEC_PAT is 0xEF; DEC_NOSTART iff it is 0xFF; DEC_LEN is nelem of it;
DEC_ELEMS holds its bits below DEC_LEN and 0 above; the elements are read off the port highest
first; with the worked examples 0xF0, 0xED, 0xEF and 0x8C and the classes outside the documented
domain. (R116) -/
def Obligations.DecoderPortShowsThePattern : Prop :=
  (∀ s : State,
      decSpace s = decide (s.ports.decPat = 0xEF#8)
      ∧ decNoStart s = decide (s.ports.decPat = 0xFF#8)
      ∧ (decLen s).toNat = nelem s.ports.decPat
      ∧ (∀ i, i ≤ 6 → (decElems s).getLsbD i = (decide (i < (decLen s).toNat) && s.ports.decPat.getLsbD i))
      ∧ elementsOf s.ports.decPat = ((List.range (decLen s).toNat).map (fun i =>
          if (decElems s).getLsbD i = false then Element.dit else Element.dah)).reverse
      ∧ (s.ports.decPat = 0xFE#8 → decLen s = 0#3)
      ∧ (s.ports.decPat.toNat < 0x80 → decLen s = 7#3 ∧ decElems s = s.ports.decPat.setWidth 7)
      ∧ (s.ports.decPat = 0xFF#8 → decLen s = 0#3 ∧ decNoStart s = true)
      ∧ (s.ports.decPat = 0xF0#8 → decSpace s = false ∧ decNoStart s = false ∧ decLen s = 3#3 ∧ decElems s = 0b0000000#7)
      ∧ (s.ports.decPat = 0xED#8 → decLen s = 4#3 ∧ decElems s = 0b0001101#7)
      ∧ (s.ports.decPat = 0xEF#8 → decSpace s = true ∧ decLen s = 0#3 ∧ decElems s = 0#7)
      ∧ (s.ports.decPat = 0x8C#8 → decLen s = 6#3 ∧ decElems s = 0b0001100#7))

/-- In every state ROM_PAT = lookup(ROM_CHAR); and replacing the values on ROM_CHAR and DEC_PAT changes
no register of the next state. (R44) -/
def Obligations.LookupPortIsPassive : Prop :=
  ∀ (s : State) (c p : Byte), romPat s = romRead s.ports.romChar
    ∧ ∃ t t', step s = .next t ∧ step { s with ports := { s.ports with romChar := c, decPat := p } } = .next t'
        ∧ SameRegisters t t'

/-- In every state NOP and RESERVED answer that state; an edge without reset in IDLE with CMD 0b00 or
0b11 changes no register. (R142) -/
def Obligations.NopAndReservedChangeNothing : Prop :=
  ∀ s : State, exec .nop s = .next s ∧ exec .reserved s = .next s
    ∧ (s.ports.rst = false → s.ctl = .idle → s.ports.cmd = 0b00#2 ∨ s.ports.cmd = 0b11#2 →
        step s = .next s.nextCycle)

/-- In an idle state PLAY answers the state with mode CHAR, unit UNIT_IN, pattern PAT_IN and: for 0xEF,
the wait of 4 units; for a byte with no element, nothing more (ctl stays IDLE); otherwise idx at the
first element, the tone on and the deadline 1 or 3 units away in SEND_DIT or SEND_DAH. Nothing else
changes. (44_commands_and_step.md R143; 44_commands_and_step.md R147 rows 2 to 5;
42_element_player.md R120 to R122, R130) -/
def Obligations.PlayBeginsThePattern : Prop :=
  ∀ s : State, s.ctl = .idle →
    let p := s.ports.patIn
    let u := s.ports.unitIn
    let q := nelem p - 1
    let s0 := { s with mode := .char, unit := u, pattern := p }
    (p = 0xEF#8 → exec .play s = .next { s0 with deadline := dl s.ports.now 4 u, ctl := .spaceWait })
    ∧ (p = 0xFE#8 ∨ p = 0xFF#8 → exec .play s = .next s0)
    ∧ (p ≠ 0xEF#8 → 1 ≤ nelem p → p.getLsbD q = false → exec .play s = .next
        { s0 with idx := BitVec.ofNat 3 q, tone := true, deadline := dl s.ports.now 1 u, ctl := .sendDit })
    ∧ (p ≠ 0xEF#8 → 1 ≤ nelem p → p.getLsbD q = true → exec .play s = .next
        { s0 with idx := BitVec.ofNat 3 q, tone := true, deadline := dl s.ports.now 3 u, ctl := .sendDah })
    ∧ (p = 0xEF#8 ∨ p = 0xFE#8 ∨ p = 0xFF#8 ∨ (p ≠ 0xEF#8 ∧ 1 ≤ nelem p))

/-- In an idle state SEND answers the state with mode MSG, unit UNIT_IN and: for a terminator at
MSG_BASE, msg_ptr MSG_BASE and nothing more; otherwise msg_ptr MSG_BASE + 1, the pattern looked up,
and the space wait of 4 units or the first element keyed with its deadline. Nothing else changes.
(44_commands_and_step.md R144; 44_commands_and_step.md R147 rows 6 to 9; 43_message_sender.md R133) -/
def Obligations.SendFetchesTheFirstCharacter : Prop :=
  ∀ s : State, s.ctl = .idle →
    let c := memRead s.mem s.ports.msgBase.toNat
    let p := romRead c
    let u := s.ports.unitIn
    let q := nelem p - 1
    let s0 := { s with mode := .msg, unit := u }
    let s1 := { s0 with msgPtr := s.ports.msgBase + 1, pattern := p }
    (c = 0x00#8 → exec .send s = .next { s0 with msgPtr := s.ports.msgBase })
    ∧ (c ≠ 0x00#8 → p = 0xEF#8 → exec .send s = .next
        { s1 with deadline := dl s.ports.now 4 u, ctl := .spaceWait })
    ∧ (c ≠ 0x00#8 → p ≠ 0xEF#8 → p.getLsbD q = false → exec .send s = .next
        { s1 with idx := BitVec.ofNat 3 q, tone := true, deadline := dl s.ports.now 1 u, ctl := .sendDit })
    ∧ (c ≠ 0x00#8 → p ≠ 0xEF#8 → p.getLsbD q = true → exec .send s = .next
        { s1 with idx := BitVec.ofNat 3 q, tone := true, deadline := dl s.ports.now 3 u, ctl := .sendDah })

/-- In an idle state PLAY does what the pattern instruction decoded from PAT_IN does in the state with
mode CHAR and unit UNIT_IN. (44_commands_and_step.md R143; 30_encoding.md R45, R52; model choice:
notes/assumptions/10.md) -/
def Obligations.PlayRunsThePatternInstruction : Prop :=
  ∀ s : State, s.ctl = .idle →
    exec .play s = exec (decodePat s.ports.patIn) { s with mode := .char, unit := s.ports.unitIn }

/-- In an idle state SEND does what the character instruction decoded from the byte at MSG_BASE does in
the state with mode MSG, unit UNIT_IN and msg_ptr MSG_BASE. (44_commands_and_step.md R144;
43_message_sender.md R133; model choice: notes/assumptions/10.md) -/
def Obligations.SendRunsTheFetchedInstruction : Prop :=
  ∀ s : State, s.ctl = .idle →
    exec .send s = exec (decodeChar (memRead s.mem s.ports.msgBase.toNat))
      { s with mode := .msg, unit := s.ports.unitIn, msgPtr := s.ports.msgBase }

/-- For every byte but the terminator and every state, the character instruction does what the pattern
instruction of lookup(byte) does in the state with msg_ptr one further. (40_code_table.md R64;
43_message_sender.md R133; model choice: notes/assumptions/10.md) -/
def Obligations.CharactersRunTheirPatterns : Prop :=
  ∀ (c : Byte) (s : State), c ≠ 0x00#8 →
    exec (decodeChar c) s = exec (decodePat (romRead c)) { s with msgPtr := s.msgPtr + 1 }

/-- In a state whose ctl is not IDLE: PLAY and SEND answer the state unchanged, and replacing CMD,
UNIT_IN, PAT_IN and MSG_BASE changes no register of the next state. (That exec of a command turned
away answers the state unchanged is the model form, log 11.) (43_message_sender.md R139;
44_commands_and_step.md R141, R145; 70_reset_and_hazards.md R169; model choice:
notes/assumptions/11.md) -/
def Obligations.CommandsAreIgnoredWhileBusy : Prop :=
  ∀ (s : State) (k : BitVec 2) (u : Duration) (p : Byte) (a : Addr), s.ctl ≠ .idle →
    exec .play s = .next s ∧ exec .send s = .next s
    ∧ ∃ t t', step s = .next t
        ∧ step { s with ports := { s.ports with cmd := k, unitIn := u, patIn := p, msgBase := a } } = .next t'
        ∧ SameRegisters t t'

/-- For each letter A to Z and every state: the next state has msg_ptr + 1, the letter's pattern, idx at
its first element, the tone on, the deadline 1 unit (DIT) or 3 units (DAH) away and ctl SEND_DIT or
SEND_DAH; mode, unit, the ports, the script and all of memory are unchanged. (Such a character in
any state, by the registers and the present NOW, is the model's form, log 10.) (40_code_table.md R64
to R90; 43_message_sender.md R133; 42_element_player.md R121, R122; model choice:
notes/assumptions/10.md) -/
def Obligations.LettersBeginTheirPatterns : Prop :=
  (∀ s : State, exec .chA s = .next (begun s 0xF9#8 1#3 .dit))
    ∧ (∀ s : State, exec .chB s = .next (begun s 0xE8#8 3#3 .dah))
    ∧ (∀ s : State, exec .chC s = .next (begun s 0xEA#8 3#3 .dah))
    ∧ (∀ s : State, exec .chD s = .next (begun s 0xF4#8 2#3 .dah))
    ∧ (∀ s : State, exec .chE s = .next (begun s 0xFC#8 0#3 .dit))
    ∧ (∀ s : State, exec .chF s = .next (begun s 0xE2#8 3#3 .dit))
    ∧ (∀ s : State, exec .chG s = .next (begun s 0xF6#8 2#3 .dah))
    ∧ (∀ s : State, exec .chH s = .next (begun s 0xE0#8 3#3 .dit))
    ∧ (∀ s : State, exec .chI s = .next (begun s 0xF8#8 1#3 .dit))
    ∧ (∀ s : State, exec .chJ s = .next (begun s 0xE7#8 3#3 .dit))
    ∧ (∀ s : State, exec .chK s = .next (begun s 0xF5#8 2#3 .dah))
    ∧ (∀ s : State, exec .chL s = .next (begun s 0xE4#8 3#3 .dit))
    ∧ (∀ s : State, exec .chM s = .next (begun s 0xFB#8 1#3 .dah))
    ∧ (∀ s : State, exec .chN s = .next (begun s 0xFA#8 1#3 .dah))
    ∧ (∀ s : State, exec .chO s = .next (begun s 0xF7#8 2#3 .dah))
    ∧ (∀ s : State, exec .chP s = .next (begun s 0xE6#8 3#3 .dit))
    ∧ (∀ s : State, exec .chQ s = .next (begun s 0xED#8 3#3 .dah))
    ∧ (∀ s : State, exec .chR s = .next (begun s 0xF2#8 2#3 .dit))
    ∧ (∀ s : State, exec .chS s = .next (begun s 0xF0#8 2#3 .dit))
    ∧ (∀ s : State, exec .chT s = .next (begun s 0xFD#8 0#3 .dah))
    ∧ (∀ s : State, exec .chU s = .next (begun s 0xF1#8 2#3 .dit))
    ∧ (∀ s : State, exec .chV s = .next (begun s 0xE1#8 3#3 .dit))
    ∧ (∀ s : State, exec .chW s = .next (begun s 0xF3#8 2#3 .dit))
    ∧ (∀ s : State, exec .chX s = .next (begun s 0xE9#8 3#3 .dah))
    ∧ (∀ s : State, exec .chY s = .next (begun s 0xEB#8 3#3 .dah))
    ∧ (∀ s : State, exec .chZ s = .next (begun s 0xEC#8 3#3 .dah))

/-- For each digit 0 to 9 and every state: the next state has msg_ptr + 1, the digit's pattern, idx 4,
the tone on, the deadline of its first element and ctl SEND_DIT or SEND_DAH; mode, unit, the ports,
the script and all of memory are unchanged. (Such a character in any state, by the registers and the
present NOW, is the model's form, log 10.) (40_code_table.md R64, R91 to R100; 43_message_sender.md
R133; 42_element_player.md R121, R122; model choice: notes/assumptions/10.md) -/
def Obligations.DigitsBeginTheirPatterns : Prop :=
  (∀ s : State, exec .dig0 s = .next (begun s 0xDF#8 4#3 .dah))
    ∧ (∀ s : State, exec .dig1 s = .next (begun s 0xCF#8 4#3 .dit))
    ∧ (∀ s : State, exec .dig2 s = .next (begun s 0xC7#8 4#3 .dit))
    ∧ (∀ s : State, exec .dig3 s = .next (begun s 0xC3#8 4#3 .dit))
    ∧ (∀ s : State, exec .dig4 s = .next (begun s 0xC1#8 4#3 .dit))
    ∧ (∀ s : State, exec .dig5 s = .next (begun s 0xC0#8 4#3 .dit))
    ∧ (∀ s : State, exec .dig6 s = .next (begun s 0xD0#8 4#3 .dah))
    ∧ (∀ s : State, exec .dig7 s = .next (begun s 0xD8#8 4#3 .dah))
    ∧ (∀ s : State, exec .dig8 s = .next (begun s 0xDC#8 4#3 .dah))
    ∧ (∀ s : State, exec .dig9 s = .next (begun s 0xDE#8 4#3 .dah))

/-- In every state: SPACE and FALLBACK (any byte) write msg_ptr + 1, pattern 0xEF, the deadline 4 units
away and ctl SPACE_WAIT; / and ? begin their patterns; MSG_TERM writes only ctl, to IDLE. Nothing
else changes. (Such a character in any state, by the registers and the present NOW, is the model's
form, log 10; FALLBACK of a supported code or of the terminator is log 17.) (40_code_table.md R101,
R102, R103, R106; 43_message_sender.md R133, R135; 42_element_player.md R120; model choice:
notes/assumptions/10.md, 17.md) -/
def Obligations.SpaceAndPunctuationBegin : Prop :=
  (∀ s : State, exec .space s = .next { s with
      msgPtr := s.msgPtr + 1, pattern := 0xEF#8, deadline := dl s.ports.now 4 s.unit, ctl := .spaceWait })
    ∧ (∀ (c : Byte) (s : State), exec (.fallback c) s = .next { s with
      msgPtr := s.msgPtr + 1, pattern := 0xEF#8, deadline := dl s.ports.now 4 s.unit, ctl := .spaceWait })
    ∧ (∀ s : State, exec .slash s = .next (begun s 0xD2#8 4#3 .dah))
    ∧ (∀ s : State, exec .question s = .next (begun s 0x8C#8 5#3 .dit))
    ∧ (∀ s : State, exec .msgTerm s = .next { s with ctl := .idle })

/-- In every state * writes msg_ptr + 1, pattern PAT_STAR, idx nelem(PAT_STAR) - 1, the tone on and the
deadline and ctl of the first element of PAT_STAR, and nothing else; # the same with PAT_HASH. (Such
a character in any state, by the registers and the present NOW, is the model's form, log 10.)
(40_code_table.md R104, R105; 43_message_sender.md R133; 42_element_player.md R121, R122; model
choice: notes/assumptions/10.md) -/
def Obligations.ProsignsBeginTheirParameterPatterns : Prop :=
  ∀ s : State,
    exec .star s = .next (begun s Config.patStar (BitVec.ofNat 3 (nelem Config.patStar - 1))
      (elem Config.patStar (nelem Config.patStar - 1)))
    ∧ exec .hash s = .next (begun s Config.patHash (BitVec.ofNat 3 (nelem Config.patHash - 1))
      (elem Config.patHash (nelem Config.patHash - 1)))

/-- For PAT_1 to PAT_6, every value of the element bits (for PAT_4 all but 1111) and every state: the
next state has that pattern byte, idx at the highest element bit, the tone on, the deadline 3 units
away in SEND_DAH if that bit is 1, else 1 unit in SEND_DIT; nothing else changes. The term PAT_4
1111, which is no instruction (log 17), does what PAT_SPACE does. (30_encoding.md R47, R48;
41_pattern_decoder.md R114; 42_element_player.md R121, R122; model choice: notes/assumptions/10.md,
17.md) -/
def Obligations.PatternsBeginTheirFirstElement : Prop :=
  (∀ (e : BitVec 1) (s : State), exec (.pat1 e) s = .next { s with
      pattern := 0b1111110#7 ++ e, idx := 0#3, tone := true
      deadline := dl s.ports.now (if e.getLsbD 0 = true then 3 else 1) s.unit
      ctl := if e.getLsbD 0 = true then .sendDah else .sendDit })
    ∧ (∀ (e : BitVec 2) (s : State), exec (.pat2 e) s = .next { s with
      pattern := 0b111110#6 ++ e, idx := 1#3, tone := true
      deadline := dl s.ports.now (if e.getLsbD 1 = true then 3 else 1) s.unit
      ctl := if e.getLsbD 1 = true then .sendDah else .sendDit })
    ∧ (∀ (e : BitVec 3) (s : State), exec (.pat3 e) s = .next { s with
      pattern := 0b11110#5 ++ e, idx := 2#3, tone := true
      deadline := dl s.ports.now (if e.getLsbD 2 = true then 3 else 1) s.unit
      ctl := if e.getLsbD 2 = true then .sendDah else .sendDit })
    ∧ (∀ (e : BitVec 4) (s : State), e ≠ 0b1111#4 → exec (.pat4 e) s = .next { s with
      pattern := 0b1110#4 ++ e, idx := 3#3, tone := true
      deadline := dl s.ports.now (if e.getLsbD 3 = true then 3 else 1) s.unit
      ctl := if e.getLsbD 3 = true then .sendDah else .sendDit })
    ∧ (∀ (e : BitVec 5) (s : State), exec (.pat5 e) s = .next { s with
      pattern := 0b110#3 ++ e, idx := 4#3, tone := true
      deadline := dl s.ports.now (if e.getLsbD 4 = true then 3 else 1) s.unit
      ctl := if e.getLsbD 4 = true then .sendDah else .sendDit })
    ∧ (∀ (e : BitVec 6) (s : State), exec (.pat6 e) s = .next { s with
      pattern := 0b10#2 ++ e, idx := 5#3, tone := true
      deadline := dl s.ports.now (if e.getLsbD 5 = true then 3 else 1) s.unit
      ctl := if e.getLsbD 5 = true then .sendDah else .sendDit })
    ∧ (∀ s : State, exec (.pat4 0b1111#4) s = exec .patSpace s)

/-- For PAT_7 with any element bits and every state: the pattern byte is the bits themselves, idx 6, the
tone on, the deadline and ctl of the element at bit 6; nothing else changes; and the pattern has
seven elements. (42_element_player.md R130 (b); 41_pattern_decoder.md R116; model choice:
notes/assumptions/10.md) -/
def Obligations.SevenElementPatternsPlay : Prop :=
  (∀ (e : BitVec 7) (s : State), exec (.pat7 e) s = .next { s with
      pattern := 0b0#1 ++ e, idx := 6#3, tone := true
      deadline := dl s.ports.now (if e.getLsbD 6 = true then 3 else 1) s.unit
      ctl := if e.getLsbD 6 = true then .sendDah else .sendDit })
    ∧ (∀ e : BitVec 7, (elementsOf (0b0#1 ++ e)).length = 7)

/-- In every state PAT_SPACE writes pattern 0xEF, the deadline 4 units away and ctl SPACE_WAIT; PAT_0
and PAT_NOSTART write their pattern and finish: ctl IDLE when mode is CHAR, the 2-unit CHAR_GAP when
mode is MSG. Nothing else changes. (42_element_player.md R120, R125, R130 (a); model choice:
notes/assumptions/10.md) -/
def Obligations.PatternsWithoutElements : Prop :=
  ∀ s : State,
    exec .patSpace s = .next { s with pattern := 0xEF#8, deadline := dl s.ports.now 4 s.unit, ctl := .spaceWait }
    ∧ (s.mode = .char → exec .pat0 s = .next { s with pattern := 0xFE#8, ctl := .idle }
        ∧ exec .patNoStart s = .next { s with pattern := 0xFF#8, ctl := .idle })
    ∧ (s.mode = .msg →
        exec .pat0 s = .next { s with pattern := 0xFE#8, deadline := dl s.ports.now 2 s.unit, ctl := .charGap }
        ∧ exec .patNoStart s =
            .next { s with pattern := 0xFF#8, deadline := dl s.ports.now 2 s.unit, ctl := .charGap })

/-- At an edge without reset in IDLE with CMD SEND and a terminator at MSG_BASE: ctl stays IDLE; mode
MSG, unit UNIT_IN and msg_ptr MSG_BASE are written; the tone and every other register are unchanged.
(43_message_sender.md R138; 44_commands_and_step.md R147 row 6) -/
def Obligations.EmptyMessageReturnsAtOnce : Prop :=
  ∀ s : State, s.ports.rst = false → s.ctl = .idle → s.ports.cmd = 0b10#2 →
    memRead s.mem s.ports.msgBase.toNat = 0x00#8 →
    step s = .next (State.nextCycle { s with mode := .msg, unit := s.ports.unitIn, msgPtr := s.ports.msgBase })

/-- At an edge without reset with ctl SEND_DIT or SEND_DAH: if NOW has reached the deadline, tone 0,
deadline one unit after this NOW, ctl SEND_INTER_ELEMENT; else no register changes. (R123) -/
def Obligations.ToneEndsAtTheDeadline : Prop :=
  ∀ s : State, s.ports.rst = false → s.ctl = .sendDit ∨ s.ctl = .sendDah →
    (s.deadline.toNat ≤ s.ports.now.toNat → step s = .next (State.nextCycle
        { s with tone := false, deadline := dl s.ports.now 1 s.unit, ctl := .sendInterElement }))
    ∧ (s.ports.now.toNat < s.deadline.toNat → step s = .next s.nextCycle)

/-- At an edge without reset with ctl SEND_INTER_ELEMENT: before the deadline no register changes; at
it, with idx 0, the call returns (mode CHAR) or the 2-unit CHAR_GAP begins (mode MSG); with idx at
least 1, idx is one less, the tone is on and the element at that bit runs for 1 or 3 units. (R124) -/
def Obligations.GapEndsWithTheNextElementOrDone : Prop :=
  ∀ s : State, s.ports.rst = false → s.ctl = .sendInterElement →
    (s.ports.now.toNat < s.deadline.toNat → step s = .next s.nextCycle)
    ∧ (s.deadline.toNat ≤ s.ports.now.toNat → s.idx = 0 → s.mode = .char →
        step s = .next (State.nextCycle { s with ctl := .idle }))
    ∧ (s.deadline.toNat ≤ s.ports.now.toNat → s.idx = 0 → s.mode = .msg →
        step s = .next (State.nextCycle { s with deadline := dl s.ports.now 2 s.unit, ctl := .charGap }))
    ∧ (s.deadline.toNat ≤ s.ports.now.toNat → s.idx ≠ 0 → s.pattern.getLsbD (s.idx.toNat - 1) = false →
        step s = .next (State.nextCycle
          { s with idx := s.idx - 1, tone := true, deadline := dl s.ports.now 1 s.unit, ctl := .sendDit }))
    ∧ (s.deadline.toNat ≤ s.ports.now.toNat → s.idx ≠ 0 → s.pattern.getLsbD (s.idx.toNat - 1) = true →
        step s = .next (State.nextCycle
          { s with idx := s.idx - 1, tone := true, deadline := dl s.ports.now 3 s.unit, ctl := .sendDah }))

/-- At an edge without reset with ctl SPACE_WAIT: before the deadline no register changes; at it, ctl
IDLE (mode CHAR) or the 2-unit CHAR_GAP (mode MSG); the tone and every other register are unchanged.
(R126) -/
def Obligations.SpaceWaitEndsSilently : Prop :=
  ∀ s : State, s.ports.rst = false → s.ctl = .spaceWait →
    (s.ports.now.toNat < s.deadline.toNat → step s = .next s.nextCycle)
    ∧ (s.deadline.toNat ≤ s.ports.now.toNat → s.mode = .char →
        step s = .next (State.nextCycle { s with ctl := .idle }))
    ∧ (s.deadline.toNat ≤ s.ports.now.toNat → s.mode = .msg →
        step s = .next (State.nextCycle { s with deadline := dl s.ports.now 2 s.unit, ctl := .charGap }))

/-- At an edge without reset with ctl CHAR_GAP: before the deadline no register changes; at it, a
terminator at msg_ptr sets ctl IDLE and nothing else; any other byte begins its Code Table pattern
at this edge with msg_ptr one further (modulo 2^16), in the space wait or with the first element
keyed. (43_message_sender.md R133, R134; 44_commands_and_step.md R147 rows 20 to 24; model choice:
notes/assumptions/2.md) -/
def Obligations.CharGapEndsWithTheFetch : Prop :=
  ∀ s : State, s.ports.rst = false → s.ctl = .charGap →
    let c := memRead s.mem s.msgPtr.toNat
    let p := romRead c
    (s.ports.now.toNat < s.deadline.toNat → step s = .next s.nextCycle)
    ∧ (s.deadline.toNat ≤ s.ports.now.toNat → c = 0x00#8 →
        step s = .next (State.nextCycle { s with ctl := .idle }))
    ∧ (s.deadline.toNat ≤ s.ports.now.toNat → c ≠ 0x00#8 → p = 0xEF#8 →
        step s = .next (State.nextCycle { s with
          msgPtr := s.msgPtr + 1, pattern := p, deadline := dl s.ports.now 4 s.unit, ctl := .spaceWait }))
    ∧ (s.deadline.toNat ≤ s.ports.now.toNat → c ≠ 0x00#8 → p ≠ 0xEF#8 →
        step s = .next (State.nextCycle
          (begun s p (BitVec.ofNat 3 (nelem p - 1)) (elem p (nelem p - 1)))))

/-- In every state and for all arguments: StartElem sets the tone and, for a 0 bit, the 1-unit deadline
and SEND_DIT, for a 1 bit the 3-unit deadline and SEND_DAH; FinishChar sets ctl IDLE for CHAR, the
2-unit deadline and CHAR_GAP for MSG; with the worked examples of both rules. (42_element_player.md
R122, R125) -/
def Obligations.PlayerProceduresWriteWhatTheyName : Prop :=
  ∀ (s : State) (p : Byte) (i : Nat) (u : Duration) (now : Tick),
    (p.getLsbD i = false → s.startElem p i u now = { s with tone := true, deadline := dl now 1 u, ctl := .sendDit })
    ∧ (p.getLsbD i = true → s.startElem p i u now = { s with tone := true, deadline := dl now 3 u, ctl := .sendDah })
    ∧ s.finishChar .char u now = { s with ctl := .idle }
    ∧ s.finishChar .msg u now = { s with deadline := dl now 2 u, ctl := .charGap }
    ∧ s.startElem 0xF9#8 1 50#16 0#32 = { s with tone := true, deadline := 50#32, ctl := .sendDit }
    ∧ s.finishChar .msg 100#16 600#32 = { s with deadline := 800#32, ctl := .charGap }

/-- For n in 1 to 4 and all now and unit: dl is (now + n x unit) mod 2^32 with the product below 2^19;
expired(now, d) holds exactly when now is at least d as unsigned integers. (The 32 and 16 bits
behind 2^32 and 2^19 are the defaults of R6, fixed by log 2.) (42_element_player.md R117, R118;
00_scope.md R6; model choice: notes/assumptions/2.md) -/
def Obligations.DeadlinesAreExactModuloTheClock : Prop :=
  (∀ (now : Tick) (n : Nat) (u : Duration), 1 ≤ n → n ≤ 4 →
      (dl now n u).toNat = (now.toNat + n * u.toNat) % 2 ^ 32 ∧ n * u.toNat < 2 ^ 19)
    ∧ (∀ now d : Tick, expired now d = true ↔ d.toNat ≤ now.toNat)

/-- At State.reset: ctl IDLE (code 0), mode 0 (CHAR), pattern 0xEF, idx 0, unit 0, deadline 0, msg_ptr
0, tone 0; and with them BUSY 0, TONE_ON 0 and MSG_ADDR = MSG_BASE. (R26) -/
def Obligations.ResetLeavesTheListedValues : Prop :=
  State.reset.ctl = .idle ∧ State.reset.ctl.code = 0 ∧ State.reset.mode = .char ∧ State.reset.mode.code = 0
    ∧ State.reset.pattern = 0xEF#8 ∧ State.reset.idx = 0 ∧ State.reset.unit = 0 ∧ State.reset.deadline = 0
    ∧ State.reset.msgPtr = 0 ∧ State.reset.tone = false
    ∧ busy State.reset = false ∧ toneOn State.reset = false ∧ msgAddr State.reset = State.reset.ports.msgBase

/-- In every state with rst 1, whatever ctl, CMD, NOW and memory are: the next state has the eight reset
values, and the environment's side is what its next cycle makes it; in it BUSY is 0, TONE_ON is 0
and MSG_ADDR is MSG_BASE. (70_reset_and_hazards.md R163, R164; 44_commands_and_step.md R140 (1)) -/
def Obligations.ResetWinsOverEverything : Prop :=
  ∀ s : State, s.ports.rst = true →
    step s = .next (State.nextCycle { s with
      ctl := .idle, mode := .char, pattern := 0xEF#8, idx := 0, unit := 0, deadline := 0, msgPtr := 0, tone := false })
    ∧ ∀ t, step s = .next t → busy t = false ∧ toneOn t = false ∧ msgAddr t = t.ports.msgBase

/-- In every state TONE_ON = tone; BUSY is 1 exactly when ctl is not IDLE; MSG_ADDR is MSG_BASE in IDLE,
else msg_ptr, whatever mode is; and MSG_DATA is the memory byte at MSG_ADDR. (10_state.md R24;
20_memory.md R33, R34) -/
def Obligations.OutputsFollowTheRegisters : Prop :=
  ∀ s : State, toneOn s = s.tone ∧ (busy s = true ↔ s.ctl ≠ .idle)
    ∧ (s.ctl = .idle → msgAddr s = s.ports.msgBase) ∧ (s.ctl ≠ .idle → msgAddr s = s.msgPtr)
    ∧ msgData s = memRead s.mem (msgAddr s).toNat

/-- For every state with rst 0, each of the 24 rows of the table of R147 whose condition holds gives the
next state: exactly the listed writes, every other register unchanged, then the environment's next
cycle. Additions to msg_ptr and MSG_BASE are modulo 2^16 (R147's 2^W_A at the width of log 2).
(44_commands_and_step.md R147; model choice: notes/assumptions/2.md) -/
def Obligations.EveryEdgeFollowsTheTransitionTable : Prop :=
  ∀ s : State, s.ports.rst = false →
    let now := s.ports.now
    let u := s.ports.unitIn
    let c := memRead s.mem (msgAddr s).toNat
    let p := romRead c
    let q := nelem p - 1
    (s.ctl = .idle → (s.ports.cmd = 0b00#2 ∨ s.ports.cmd = 0b11#2) → step s = .next (State.nextCycle s))
    ∧ (s.ctl = .idle → s.ports.cmd = 0b01#2 → s.ports.patIn = 0xEF#8 → step s = .next (State.nextCycle { s with mode := .char, unit := u, pattern := 0xEF#8, deadline := dl now 4 u, ctl := .spaceWait }))
    ∧ (s.ctl = .idle → s.ports.cmd = 0b01#2 → (s.ports.patIn = 0xFE#8 ∨ s.ports.patIn = 0xFF#8) → step s = .next (State.nextCycle { s with mode := .char, unit := u, pattern := s.ports.patIn, ctl := .idle }))
    ∧ (s.ctl = .idle → s.ports.cmd = 0b01#2 → s.ports.patIn ≠ 0xEF#8 → 1 ≤ nelem s.ports.patIn → s.ports.patIn.getLsbD (nelem s.ports.patIn - 1) = false → step s = .next (State.nextCycle { s with
        mode := .char, unit := u, pattern := s.ports.patIn, idx := BitVec.ofNat 3 (nelem s.ports.patIn - 1), tone := true
        deadline := dl now 1 u, ctl := .sendDit }))
    ∧ (s.ctl = .idle → s.ports.cmd = 0b01#2 → s.ports.patIn ≠ 0xEF#8 → 1 ≤ nelem s.ports.patIn → s.ports.patIn.getLsbD (nelem s.ports.patIn - 1) = true → step s = .next (State.nextCycle { s with
        mode := .char, unit := u, pattern := s.ports.patIn, idx := BitVec.ofNat 3 (nelem s.ports.patIn - 1), tone := true
        deadline := dl now 3 u, ctl := .sendDah }))
    ∧ (s.ctl = .idle → s.ports.cmd = 0b10#2 → c = 0x00#8 → step s = .next (State.nextCycle { s with mode := .msg, unit := u, msgPtr := s.ports.msgBase, ctl := .idle }))
    ∧ (s.ctl = .idle → s.ports.cmd = 0b10#2 → c ≠ 0x00#8 → p = 0xEF#8 → step s = .next (State.nextCycle { s with
        mode := .msg, unit := u, msgPtr := s.ports.msgBase + 1, pattern := 0xEF#8, deadline := dl now 4 u, ctl := .spaceWait }))
    ∧ (s.ctl = .idle → s.ports.cmd = 0b10#2 → c ≠ 0x00#8 → p ≠ 0xEF#8 → p.getLsbD q = false → step s = .next (State.nextCycle { s with
        mode := .msg, unit := u, msgPtr := s.ports.msgBase + 1, pattern := p, idx := BitVec.ofNat 3 q, tone := true
        deadline := dl now 1 u, ctl := .sendDit }))
    ∧ (s.ctl = .idle → s.ports.cmd = 0b10#2 → c ≠ 0x00#8 → p ≠ 0xEF#8 → p.getLsbD q = true → step s = .next (State.nextCycle { s with
        mode := .msg, unit := u, msgPtr := s.ports.msgBase + 1, pattern := p, idx := BitVec.ofNat 3 q, tone := true
        deadline := dl now 3 u, ctl := .sendDah }))
    ∧ ((s.ctl = .sendDit ∨ s.ctl = .sendDah) → now.toNat < s.deadline.toNat → step s = .next (State.nextCycle s))
    ∧ ((s.ctl = .sendDit ∨ s.ctl = .sendDah) → s.deadline.toNat ≤ now.toNat → step s = .next (State.nextCycle { s with tone := false, deadline := dl now 1 s.unit, ctl := .sendInterElement }))
    ∧ (s.ctl = .sendInterElement → now.toNat < s.deadline.toNat → step s = .next (State.nextCycle s))
    ∧ (s.ctl = .sendInterElement → s.deadline.toNat ≤ now.toNat → s.idx ≠ 0 → s.pattern.getLsbD (s.idx.toNat - 1) = false → step s = .next (State.nextCycle { s with
        idx := s.idx - 1, tone := true, deadline := dl now 1 s.unit, ctl := .sendDit }))
    ∧ (s.ctl = .sendInterElement → s.deadline.toNat ≤ now.toNat → s.idx ≠ 0 → s.pattern.getLsbD (s.idx.toNat - 1) = true → step s = .next (State.nextCycle { s with
        idx := s.idx - 1, tone := true, deadline := dl now 3 s.unit, ctl := .sendDah }))
    ∧ (s.ctl = .sendInterElement → s.deadline.toNat ≤ now.toNat → s.idx = 0 → s.mode = .char → step s = .next (State.nextCycle { s with ctl := .idle }))
    ∧ (s.ctl = .sendInterElement → s.deadline.toNat ≤ now.toNat → s.idx = 0 → s.mode = .msg → step s = .next (State.nextCycle { s with deadline := dl now 2 s.unit, ctl := .charGap }))
    ∧ (s.ctl = .spaceWait → now.toNat < s.deadline.toNat → step s = .next (State.nextCycle s))
    ∧ (s.ctl = .spaceWait → s.deadline.toNat ≤ now.toNat → s.mode = .char → step s = .next (State.nextCycle { s with ctl := .idle }))
    ∧ (s.ctl = .spaceWait → s.deadline.toNat ≤ now.toNat → s.mode = .msg → step s = .next (State.nextCycle { s with deadline := dl now 2 s.unit, ctl := .charGap }))
    ∧ (s.ctl = .charGap → now.toNat < s.deadline.toNat → step s = .next (State.nextCycle s))
    ∧ (s.ctl = .charGap → s.deadline.toNat ≤ now.toNat → c = 0x00#8 → step s = .next (State.nextCycle { s with ctl := .idle }))
    ∧ (s.ctl = .charGap → s.deadline.toNat ≤ now.toNat → c ≠ 0x00#8 → p = 0xEF#8 → step s = .next (State.nextCycle { s with
        msgPtr := s.msgPtr + 1, pattern := 0xEF#8, deadline := dl now 4 s.unit, ctl := .spaceWait }))
    ∧ (s.ctl = .charGap → s.deadline.toNat ≤ now.toNat → c ≠ 0x00#8 → p ≠ 0xEF#8 → p.getLsbD q = false → step s = .next (State.nextCycle { s with
        msgPtr := s.msgPtr + 1, pattern := p, idx := BitVec.ofNat 3 q, tone := true
        deadline := dl now 1 s.unit, ctl := .sendDit }))
    ∧ (s.ctl = .charGap → s.deadline.toNat ≤ now.toNat → c ≠ 0x00#8 → p ≠ 0xEF#8 → p.getLsbD q = true → step s = .next (State.nextCycle { s with
        msgPtr := s.msgPtr + 1, pattern := p, idx := BitVec.ofNat 3 q, tone := true
        deadline := dl now 3 s.unit, ctl := .sendDah }))

/-- For every state with rst 0: if ctl is IDLE and CMD is the word of a command i, step is exec of i
followed by the environment's next cycle; if ctl is CHAR_GAP, NOW has reached the deadline and the
byte at msg_ptr is the word of a well-formed character i, likewise. (44_commands_and_step.md R140,
R141; 43_message_sender.md R134) -/
def Obligations.StepRunsTheTakenInstruction : Prop :=
  ∀ (s t : State) (i : Instr), s.ports.rst = false →
    (s.ctl = .idle → decode .cmd2 [s.ports.cmd.setWidth 8] = .ok (i, []) → exec i s = .next t →
        step s = .next t.nextCycle)
    ∧ (s.ctl = .charGap → s.deadline.toNat ≤ s.ports.now.toNat →
        decode .char8 [memRead s.mem s.msgPtr.toNat] = .ok (i, []) → exec i s = .next t →
        step s = .next t.nextCycle)

/-- For every state, step answers a next state, and for every instruction and state, exec answers a next
state: there is no fault and no refusal. (R150) -/
def Obligations.StepAlwaysAnswersANextState : Prop :=
  (∀ s : State, ∃ t, step s = .next t) ∧ (∀ (i : Instr) (s : State), ∃ t, exec i s = .next t)

/-- If (a) to (e) of R27 hold in s (tone exactly in SEND_DIT and SEND_DAH; the bit at idx is the element
being sent; a sending state has a non-sentinel pattern with idx below its length; SPACE_WAIT has
0xEF; CHAR_GAP has mode MSG) and step answers t, they hold in t; (f) is the type of ctl. With
ControlInvariantsHoldAtReset this gives R27 for every run from reset. (10_state.md R27) -/
def Obligations.ControlInvariantsAreKept : Prop :=
  ∀ s t : State, Controlled s → step s = .next t → Controlled t

/-- R27 (a) to (e) hold at State.reset, and no ctl has code 6 or 7. (10_state.md R26, R27, R13) -/
def Obligations.ControlInvariantsHoldAtReset : Prop :=
  Controlled State.reset ∧ ∀ c : Ctl, c.code ≠ 6 ∧ c.code ≠ 7

/-- If the memory of s is canonical (addresses strictly rising below 65536, no entry equal to what an
unlisted address reads as) and step answers t, the memory of t is canonical; and the reset state's
memory is. (The form is the model's own representation, log 7.) (20_memory.md R32; model choice:
notes/assumptions/7.md) -/
def Obligations.MemoryStaysCanonical : Prop :=
  (∀ s t : State, memWf s.mem = true → step s = .next t → memWf t.mem = true)
    ∧ memWf State.reset.mem = true

/-- For a canonical memory, reading any address after a write gives the byte written at the written
address and what was there before at every other. (Memory as the environment keeps it, log 7 and log
8.) (20_memory.md R32, R33, R42; model choice: notes/assumptions/8.md) -/
def Obligations.MemoryReadsWhatWasWritten : Prop :=
  ∀ (m : Memory) (a x : Nat) (v : Byte), memWf m = true →
    memRead (memWrite m a v) x = if x = a then v else memRead m x

/-- Whatever instruction runs, the ports, the script and every byte of memory are unchanged; and after a
step the memory is that of the state with the writes of the next scripted cycle, or unchanged if
nothing is scripted. (20_memory.md R30, R32; 10_state.md R25; model choice: notes/assumptions/1.md) -/
def Obligations.InstructionsNeverWriteMemory : Prop :=
  (∀ (i : Instr) (s t : State), exec i s = .next t → SameEnvironment s t)
    ∧ (∀ s t : State, step s = .next t →
        (s.script = [] → t.mem = s.mem)
        ∧ (∀ c cs, s.script = c :: cs → t.mem = memWriteAll s.mem c.writes ∧ t.script = cs ∧ t.ports = c.ports))

/-- For a step without reset. mode and unit are unchanged but at an IDLE edge with PLAY or SEND, which
latches CHAR or MSG and UNIT_IN. msg_ptr, pattern and idx are unchanged at an IDLE edge with NOP or
RESERVED, and at a CHAR_GAP edge before its deadline or that finds the terminator; an accepted PLAY
writes PAT_IN to pattern and leaves msg_ptr; an accepted SEND with a terminator writes MSG_BASE to
msg_ptr and leaves pattern and idx; a SEND or a CHAR_GAP expiry that finds a character writes its
address plus one to msg_ptr and its lookup to pattern; where a character begins, idx changes only to
its first element. In the other states msg_ptr and pattern are unchanged, and idx changes only at
the expiry of SEND_INTER_ELEMENT, by minus one. (10_state.md R15, R16, R17, R18, R20;
44_commands_and_step.md R143, R144, R145; 43_message_sender.md R133, R134) -/
def Obligations.ModeAndUnitAreLatchedPerCall : Prop :=
  ∀ s t : State, s.ports.rst = false → step s = .next t →
    let nop := s.ports.cmd = 0b00#2 ∨ s.ports.cmd = 0b11#2
    let first := memRead s.mem s.ports.msgBase.toNat
    let c := memRead s.mem s.msgPtr.toNat
    (s.ctl ≠ .idle ∨ nop → t.mode = s.mode ∧ t.unit = s.unit)
    ∧ (s.ctl = .idle → nop → t.msgPtr = s.msgPtr ∧ t.pattern = s.pattern ∧ t.idx = s.idx)
    ∧ (s.ctl = .idle → s.ports.cmd = 0b01#2 → t.mode = .char ∧ t.unit = s.ports.unitIn
        ∧ t.msgPtr = s.msgPtr ∧ t.pattern = s.ports.patIn)
    ∧ (s.ctl = .idle → s.ports.cmd = 0b10#2 → t.mode = .msg ∧ t.unit = s.ports.unitIn)
    ∧ (s.ctl = .idle → s.ports.cmd = 0b10#2 → first = 0x00#8 →
        t.msgPtr = s.ports.msgBase ∧ t.pattern = s.pattern ∧ t.idx = s.idx)
    ∧ (s.ctl = .idle → s.ports.cmd = 0b10#2 → first ≠ 0x00#8 →
        t.msgPtr = s.ports.msgBase + 1 ∧ t.pattern = romRead first)
    ∧ (s.ctl ≠ .idle → s.ctl ≠ .charGap → t.msgPtr = s.msgPtr ∧ t.pattern = s.pattern
        ∧ (t.idx ≠ s.idx → s.ctl = .sendInterElement ∧ s.deadline.toNat ≤ s.ports.now.toNat ∧ t.idx = s.idx - 1))
    ∧ (s.ctl = .charGap → s.ports.now.toNat < s.deadline.toNat ∨ c = 0x00#8 →
        t.msgPtr = s.msgPtr ∧ t.pattern = s.pattern ∧ t.idx = s.idx)
    ∧ (s.ctl = .charGap → s.deadline.toNat ≤ s.ports.now.toNat → c ≠ 0x00#8 →
        t.msgPtr = s.msgPtr + 1 ∧ t.pattern = romRead c)
    ∧ (s.ctl = .idle ∨ s.ctl = .charGap → t.idx ≠ s.idx →
        1 ≤ nelem t.pattern ∧ t.idx = BitVec.ofNat 3 (nelem t.pattern - 1))

/-- Replacing the memory changes no register of the next state, provided that, if the edge accepts a
SEND or ends a CHAR_GAP, the byte at MSG_ADDR is the same. (20_memory.md R35) -/
def Obligations.MessageDataIsUsedAtFetchEdgesOnly : Prop :=
  ∀ (s : State) (m : Memory),
    (s.ports.rst = false →
      (s.ctl = .idle ∧ s.ports.cmd = 0b10#2) ∨ (s.ctl = .charGap ∧ s.deadline.toNat ≤ s.ports.now.toNat) →
      memRead m (msgAddr s).toNat = memRead s.mem (msgAddr s).toNat) →
    ∃ t t', step s = .next t ∧ step { s with mem := m } = .next t' ∧ SameRegisters t t'

/-- From a state in a waiting state, over any number n of edges at all of which rst is 0 and NOW is
below the deadline, whatever else the environment does, the machine answers a next state n edges
later with every register as it was. (42_element_player.md R118, R129; 70_reset_and_hazards.md R175;
model choice: notes/assumptions/1.md) -/
def Obligations.WaitingStatesLastUntilTheDeadline : Prop :=
  ∀ (s : State) (n : Nat), s.ctl.waiting = true →
    (∀ k, k < n → (s.cycleAt k).ports.rst = false ∧ s.nowAt k < s.deadline.toNat) →
    ∃ t, Sys2Proof.core.run n s = .next t ∧ SameRegisters s t

/-- Let an idle machine accept PLAY of any pattern byte, silent if that byte keys no element, with unit
at least 1. Let m be any number of edges without reset at which NOW stands still or rises by one
(R175), no deadline wrapping. After each of these edges whose NOW lies before the end, BUSY is 1 and
TONE_ON is that of the timeline (each element on for its units, then one silent unit; the space
silent for 4); after the first edge whose NOW is the end, both are 0. The end is (D + k) x unit
ticks after acceptance, 4 x unit for the space, 0 for a pattern without elements.
(42_element_player.md R120, R126, R128, R130; 40_code_table.md R110; 70_reset_and_hazards.md R167,
R175; 44_commands_and_step.md R143; model choice: notes/assumptions/1.md, 2.md) -/
def Obligations.PlayedCharactersKeepTheirTimeline : Prop :=
  ∀ (s : State) (m : Nat),
    let p := s.ports.patIn
    let is := characterIntervals p
    s.ctl = .idle → s.ports.cmd = 0b01#2 → (nelem p = 0 → s.tone = false) → 1 ≤ s.ports.unitIn.toNat →
    s.nowAt 0 + unitsOf is * s.ports.unitIn.toNat < 2 ^ 32 → Steady s m →
    FollowsTimeline s m is s.ports.unitIn.toNat
    ∧ unitsOf is = if p = 0xEF#8 then 4 else totalUnits (elementsOf p) + (elementsOf p).length

/-- Two idle, silent states with the same environment, whatever is in their other registers, show the
same TONE_ON and BUSY after any number of edges. (10_state.md R28; 92_eei_decisions.md D27) -/
def Obligations.StaleRegistersAreInvisible : Prop :=
  ∀ (s s' : State) (n : Nat), s.ctl = .idle → s'.ctl = .idle → s.tone = false → s'.tone = false →
    SameEnvironment s s' →
    ∃ t t', Sys2Proof.core.run n s = .next t ∧ Sys2Proof.core.run n s' = .next t'
      ∧ toneOn t = toneOn t' ∧ busy t = busy t'

/-- If the unit in force (UNIT_IN at an accepting edge, else the register) is 0 and the edge without
reset changes ctl to a waiting state, or changes the deadline, the new deadline is the NOW of that
edge. (42_element_player.md R131) -/
def Obligations.ZeroUnitDeadlinesAreNow : Prop :=
  ∀ s t : State, s.ports.rst = false → (s.ctl = .idle → s.ports.unitIn = 0) → (s.ctl ≠ .idle → s.unit = 0) →
    step s = .next t → (t.ctl ≠ s.ctl ∧ t.ctl ≠ .idle) ∨ t.deadline ≠ s.deadline → t.deadline = s.ports.now

/-- For every state whose memory is canonical and every word w that decodeTableWord reads as an
instruction i: after w is placed, step answers what exec of i answers, then the environment's next
cycle: a command in the placed state; a pattern in that state with mode CHAR and unit UNIT_IN
latched (PLAY); a character in it with mode MSG, unit UNIT_IN and msg_ptr MSG_BASE latched (SEND).
Placing sets ctl IDLE and rst 0 and changes no other register, nor NOW, UNIT_IN, MSG_BASE or the
script. (The model's own loading interface, log 12 and log 13; exec of a character or a pattern, log
10.) (44_commands_and_step.md R141, R143, R144; model choice: notes/assumptions/10.md, 12.md, 13.md) -/
def Obligations.PlacedWordsAreTaken : Prop :=
  ∀ (s : State) (nbits w : Nat) (i : Instr), memWf s.mem = true → decodeTableWord nbits w = some i →
    let r := s.withFetchWord nbits w
    (i.format = .cmd2 → ∃ t, exec i r = .next t ∧ step r = .next t.nextCycle)
    ∧ (i.format = .pat8 → ∃ t, exec i { r with mode := .char, unit := r.ports.unitIn } = .next t
        ∧ step r = .next t.nextCycle)
    ∧ (i.format = .char8 → ∃ t, exec i { r with mode := .msg, unit := r.ports.unitIn, msgPtr := r.ports.msgBase } = .next t
        ∧ step r = .next t.nextCycle)
    ∧ SameRegisters { s with ctl := .idle } r ∧ r.ports.rst = false ∧ r.script = s.script
    ∧ r.ports.now = s.ports.now ∧ r.ports.unitIn = s.ports.unitIn ∧ r.ports.msgBase = s.ports.msgBase

/-- Let an idle, silent machine accept SEND with unit at least 1. Let m be any number of edges without
reset at which NOW stands still or rises by one (R175), no deadline wrapping, and at all of which
the memory from MSG_BASE on (addresses modulo 2^16) holds the bytes cs, none of them the terminator,
and then the terminator. After each of these edges whose NOW lies before the end, BUSY is 1 and
TONE_ON is that of the message timeline (each character, a space or unsupported byte silent for 4
units, then 2 silent units); after the first edge whose NOW is the end, both are 0. The end is (sum
of occ(c) + 2) x unit ticks after acceptance, occ being D + k or 4. (43_message_sender.md R133 to
R137; 44_commands_and_step.md R144; 40_code_table.md R110; 20_memory.md R39, R42;
70_reset_and_hazards.md R167, R175; model choice: notes/assumptions/1.md, 2.md, 8.md) -/
def Obligations.SentMessagesKeepTheirTimeline : Prop :=
  ∀ (s : State) (m : Nat) (cs : List Byte),
    let is := messageIntervals cs
    s.ctl = .idle → s.ports.cmd = 0b10#2 → s.tone = false → 1 ≤ s.ports.unitIn.toNat →
    s.nowAt 0 + unitsOf is * s.ports.unitIn.toNat < 2 ^ 32 → Steady s m →
    (∀ c ∈ cs, c ≠ 0x00#8) →
    (∀ k, k < m → ∀ i, i ≤ cs.length →
      memRead (s.cycleAt k).mem (s.ports.msgBase + BitVec.ofNat 16 i).toNat = cs.getD i 0x00#8) →
    FollowsTimeline s m is s.ports.unitIn.toNat
    ∧ unitsOf is = (cs.map fun c => (if romRead c = 0xEF#8 then 4
        else totalUnits (elementsOf (romRead c)) + (elementsOf (romRead c)).length) + 2).sum

/-- If two states have the same environment, ctl and tone, and agree on every register that the call in
progress still reads (none while idle; mode, unit and deadline in a call; msg_ptr in a SEND; pattern
and idx while elements are sent; CHAR_GAP only in a SEND), and both take a step, they agree so
again. Such states show the same TONE_ON and BUSY, and the same MSG_ADDR but during a PLAY, where it
shows the stale msg_ptr (R20, R24). (10_state.md R20, R24, R28; 92_eei_decisions.md D27) -/
def Obligations.LookingAlikeIsKeptByAStep : Prop :=
  ∀ s s' t t' : State, LooksAlike s s' → step s = .next t → step s' = .next t' → LooksAlike t t'
end

