-- ==== Sys2Proof/Laws/CodeTable.lean ====
section
/-! SUPPORT. What the Code Table delivers, whatever the two prosign parameters are. -/

namespace Sys2Proof.Machine

/-- Each of the 125 candidates for a prosign has bit 7 set and 1 to 6 elements. -/
theorem admissiblePattern_spec : ∀ i : Fin 125,
    Config.admissiblePattern i ≠ spacePattern ∧ (Config.admissiblePattern i).getLsbD 7 = true
      ∧ 1 ≤ nelem (Config.admissiblePattern i) ∧ nelem (Config.admissiblePattern i) ≤ 6 := by
  decide

/-- A code of the table that is no prosign looks up a pattern that does not depend on the parameters. -/
theorem romRead_cases (c : Byte) :
    romRead c = Config.patStar ∨ romRead c = Config.patHash ∨ romRead c = spacePattern ∨
      ∃ r ∈ letterPatterns ++ digitPatterns ++ [(0x2F#8, 0xD2#8), (0x3F#8, 0x8C#8)], romRead c = r.2 := by
  have h : ∀ (l : List (Byte × Byte)) (p : Byte), l.lookup c = some p → ∃ r ∈ l, r.2 = p := by
    intro l
    induction l with
    | nil => simp
    | cons r l ih =>
      intro p hp
      rw [List.lookup_cons] at hp
      split at hp
      · exact ⟨r, by simp, by simpa using hp⟩
      · obtain ⟨r', h1, h2⟩ := ih p hp
        exact ⟨r', by simp [h1], h2⟩
  unfold romRead
  cases hl : codeTable.lookup c with
  | none => simp
  | some p =>
    obtain ⟨r, hr, rfl⟩ := h _ _ hl
    simp only [codeTable, punctuationPatterns, List.mem_append, List.mem_cons, List.not_mem_nil, or_false] at hr
    simp only [Option.getD_some]
    rcases hr with hr | hr | rfl | rfl | rfl | rfl | rfl
    · exact .inr (.inr (.inr ⟨r, by simp [hr], rfl⟩))
    · exact .inr (.inr (.inr ⟨r, by simp [hr], rfl⟩))
    · exact .inr (.inr (.inl rfl))
    · exact .inr (.inr (.inr ⟨_, by simp, rfl⟩))
    · exact .inr (.inr (.inr ⟨(0x3F#8, 0x8C#8), by simp, rfl⟩))
    · exact .inl rfl
    · exact .inr (.inl rfl)

/-- An entry of the table that is not the sentinel has at least one element, so a fetched character never
takes the branch of `BeginChar` for patterns without elements (R107 (c), R147). -/
theorem nelem_romRead_pos {c : Byte} (h : romRead c ≠ spacePattern) : 1 ≤ nelem (romRead c) := by
  rcases romRead_cases c with h' | h' | h' | ⟨r, hr, h'⟩
  · rw [h']; exact (admissiblePattern_spec _).2.2.1
  · rw [h']; exact (admissiblePattern_spec _).2.2.1
  · exact absurd h' h
  · rw [h']
    have hall : (letterPatterns ++ digitPatterns ++ [(0x2F#8, 0xD2#8), (0x3F#8, 0x8C#8)]).all
        (fun r => decide (1 ≤ nelem r.2)) = true := rfl
    simpa using List.all_eq_true.1 hall r hr

end Sys2Proof.Machine
end

