-- ==== Sys2Proof/Laws/Memory.lean ====
section
/-! SUPPORT. The canonical form of the message memory is kept by every write. -/

namespace Sys2Proof.Machine

@[simp] theorem memWf_nil : memWf [] = true := rfl

theorem memWf_cons {k : Nat} {v : Byte} {m : Memory} :
    memWf ((k, v) :: m) = true ↔
      k < 65536 ∧ v ≠ Config.unlistedByte ∧ memAbove k m = true ∧ memWf m = true := by
  simp [memWf, and_assoc]

theorem memAbove_trans {a b : Nat} (h : a < b) : ∀ {m : Memory}, memAbove b m = true → memAbove a m = true
  | [], _ => rfl
  | (k, _) :: _, hm => by simp only [memAbove, decide_eq_true_eq] at hm ⊢; omega

/-- A write leaves the memory above every address that it and the write were above. -/
theorem memAbove_memWrite {x a : Nat} {b : Byte} (hx : x < a) :
    ∀ {m : Memory}, memWf m = true → memAbove x m = true → memAbove x (memWrite m a b) = true
  | [], _, _ => by unfold memWrite; split <;> simp [memAbove, hx]
  | (k, v) :: m, hwf, hm => by
    have hk : x < k := by simpa [memAbove] using hm
    obtain ⟨-, -, hab, -⟩ := memWf_cons.1 hwf
    unfold memWrite
    split
    · split <;> simp [memAbove, hx, hk]
    · split
      · split
        · exact memAbove_trans hk hab
        · simp [memAbove, hx]
      · simp [memAbove, hk]

/-- A write at an address of the 65536 bytes keeps the canonical form. -/
theorem memWf_memWrite {a : Nat} {b : Byte} (ha : a < 65536) :
    ∀ {m : Memory}, memWf m = true → memWf (memWrite m a b) = true
  | [], _ => by unfold memWrite; split <;> simp_all [memWf, memAbove]
  | (k, v) :: m, hwf => by
    obtain ⟨hk, hv, hab, hm⟩ := memWf_cons.1 hwf
    unfold memWrite
    split
    case isTrue h =>
      split
      · exact hwf
      case isFalse hb => exact memWf_cons.2 ⟨ha, hb, by simp [memAbove, h], hwf⟩
    case isFalse h =>
      split
      case isTrue h' =>
        split
        · exact hm
        case isFalse hb => exact memWf_cons.2 ⟨ha, hb, h' ▸ hab, hm⟩
      case isFalse h' =>
        exact memWf_cons.2 ⟨hk, hv, memAbove_memWrite (by omega) hm hab, memWf_memWrite ha hm⟩

/-- The writes of one clock cycle keep the canonical form. -/
theorem memWf_memWriteAll : ∀ (ws : List (Addr × Byte)) {m : Memory}, memWf m = true → memWf (memWriteAll m ws) = true
  | [], _, h => h
  | w :: ws, _, h => memWf_memWriteAll ws (memWf_memWrite (by have := w.1.isLt; omega) h)

end Sys2Proof.Machine
end

