-- ==== Sys2Proof/Laws/PerInstr.lean ====
section
/-! SUPPORT. Per-instruction laws. -/

namespace Sys2Proof.Laws

/-- The word of an instruction fits the width of its format (30_encoding.md R45, R57): a command has no
bit above bit 1. -/
def EncodingWidth.Statement (i : Instr) : Prop := (encode i).toNat < 2 ^ i.format.width

theorem EncodingWidth.chA : EncodingWidth.Statement .chA := (encode .chA).isLt
theorem EncodingWidth.chB : EncodingWidth.Statement .chB := (encode .chB).isLt
theorem EncodingWidth.chC : EncodingWidth.Statement .chC := (encode .chC).isLt
theorem EncodingWidth.chD : EncodingWidth.Statement .chD := (encode .chD).isLt
theorem EncodingWidth.chE : EncodingWidth.Statement .chE := (encode .chE).isLt
theorem EncodingWidth.chF : EncodingWidth.Statement .chF := (encode .chF).isLt
theorem EncodingWidth.chG : EncodingWidth.Statement .chG := (encode .chG).isLt
theorem EncodingWidth.chH : EncodingWidth.Statement .chH := (encode .chH).isLt
theorem EncodingWidth.chI : EncodingWidth.Statement .chI := (encode .chI).isLt
theorem EncodingWidth.chJ : EncodingWidth.Statement .chJ := (encode .chJ).isLt
theorem EncodingWidth.chK : EncodingWidth.Statement .chK := (encode .chK).isLt
theorem EncodingWidth.chL : EncodingWidth.Statement .chL := (encode .chL).isLt
theorem EncodingWidth.chM : EncodingWidth.Statement .chM := (encode .chM).isLt
theorem EncodingWidth.chN : EncodingWidth.Statement .chN := (encode .chN).isLt
theorem EncodingWidth.chO : EncodingWidth.Statement .chO := (encode .chO).isLt
theorem EncodingWidth.chP : EncodingWidth.Statement .chP := (encode .chP).isLt
theorem EncodingWidth.chQ : EncodingWidth.Statement .chQ := (encode .chQ).isLt
theorem EncodingWidth.chR : EncodingWidth.Statement .chR := (encode .chR).isLt
theorem EncodingWidth.chS : EncodingWidth.Statement .chS := (encode .chS).isLt
theorem EncodingWidth.chT : EncodingWidth.Statement .chT := (encode .chT).isLt
theorem EncodingWidth.chU : EncodingWidth.Statement .chU := (encode .chU).isLt
theorem EncodingWidth.chV : EncodingWidth.Statement .chV := (encode .chV).isLt
theorem EncodingWidth.chW : EncodingWidth.Statement .chW := (encode .chW).isLt
theorem EncodingWidth.chX : EncodingWidth.Statement .chX := (encode .chX).isLt
theorem EncodingWidth.chY : EncodingWidth.Statement .chY := (encode .chY).isLt
theorem EncodingWidth.chZ : EncodingWidth.Statement .chZ := (encode .chZ).isLt
theorem EncodingWidth.dig0 : EncodingWidth.Statement .dig0 := (encode .dig0).isLt
theorem EncodingWidth.dig1 : EncodingWidth.Statement .dig1 := (encode .dig1).isLt
theorem EncodingWidth.dig2 : EncodingWidth.Statement .dig2 := (encode .dig2).isLt
theorem EncodingWidth.dig3 : EncodingWidth.Statement .dig3 := (encode .dig3).isLt
theorem EncodingWidth.dig4 : EncodingWidth.Statement .dig4 := (encode .dig4).isLt
theorem EncodingWidth.dig5 : EncodingWidth.Statement .dig5 := (encode .dig5).isLt
theorem EncodingWidth.dig6 : EncodingWidth.Statement .dig6 := (encode .dig6).isLt
theorem EncodingWidth.dig7 : EncodingWidth.Statement .dig7 := (encode .dig7).isLt
theorem EncodingWidth.dig8 : EncodingWidth.Statement .dig8 := (encode .dig8).isLt
theorem EncodingWidth.dig9 : EncodingWidth.Statement .dig9 := (encode .dig9).isLt
theorem EncodingWidth.space : EncodingWidth.Statement .space := (encode .space).isLt
theorem EncodingWidth.slash : EncodingWidth.Statement .slash := (encode .slash).isLt
theorem EncodingWidth.question : EncodingWidth.Statement .question := (encode .question).isLt
theorem EncodingWidth.star : EncodingWidth.Statement .star := (encode .star).isLt
theorem EncodingWidth.hash : EncodingWidth.Statement .hash := (encode .hash).isLt
theorem EncodingWidth.fallback (c : Byte) : EncodingWidth.Statement (.fallback c) := c.isLt
theorem EncodingWidth.msgTerm : EncodingWidth.Statement .msgTerm := (encode .msgTerm).isLt
theorem EncodingWidth.patSpace : EncodingWidth.Statement .patSpace := (encode .patSpace).isLt
theorem EncodingWidth.pat1 (e : BitVec 1) : EncodingWidth.Statement (.pat1 e) := (encode (.pat1 e)).isLt
theorem EncodingWidth.pat2 (e : BitVec 2) : EncodingWidth.Statement (.pat2 e) := (encode (.pat2 e)).isLt
theorem EncodingWidth.pat3 (e : BitVec 3) : EncodingWidth.Statement (.pat3 e) := (encode (.pat3 e)).isLt
theorem EncodingWidth.pat4 (e : BitVec 4) : EncodingWidth.Statement (.pat4 e) := (encode (.pat4 e)).isLt
theorem EncodingWidth.pat5 (e : BitVec 5) : EncodingWidth.Statement (.pat5 e) := (encode (.pat5 e)).isLt
theorem EncodingWidth.pat6 (e : BitVec 6) : EncodingWidth.Statement (.pat6 e) := (encode (.pat6 e)).isLt
theorem EncodingWidth.pat0 : EncodingWidth.Statement .pat0 := (encode .pat0).isLt
theorem EncodingWidth.patNoStart : EncodingWidth.Statement .patNoStart := (encode .patNoStart).isLt
theorem EncodingWidth.pat7 (e : BitVec 7) : EncodingWidth.Statement (.pat7 e) := (encode (.pat7 e)).isLt
theorem EncodingWidth.nop : EncodingWidth.Statement .nop := by
  show (encode .nop).toNat < 2 ^ 2
  decide
theorem EncodingWidth.play : EncodingWidth.Statement .play := by
  show (encode .play).toNat < 2 ^ 2
  decide
theorem EncodingWidth.send : EncodingWidth.Statement .send := by
  show (encode .send).toNat < 2 ^ 2
  decide
theorem EncodingWidth.reserved : EncodingWidth.Statement .reserved := by
  show (encode .reserved).toNat < 2 ^ 2
  decide

end Sys2Proof.Laws
end

