-- ==== Sys2Proof/Laws/State.lean ====
section
/-! SUPPORT. Each update of `State` read through each field. -/

namespace Sys2Proof.Machine

@[simp] theorem State.setCtl_ctl (s : State) (v : Ctl) : (s.setCtl v).ctl = v := rfl
@[simp] theorem State.setCtl_mode (s : State) (v : Ctl) : (s.setCtl v).mode = s.mode := rfl
@[simp] theorem State.setCtl_pattern (s : State) (v : Ctl) : (s.setCtl v).pattern = s.pattern := rfl
@[simp] theorem State.setCtl_idx (s : State) (v : Ctl) : (s.setCtl v).idx = s.idx := rfl
@[simp] theorem State.setCtl_unit (s : State) (v : Ctl) : (s.setCtl v).unit = s.unit := rfl
@[simp] theorem State.setCtl_deadline (s : State) (v : Ctl) : (s.setCtl v).deadline = s.deadline := rfl
@[simp] theorem State.setCtl_msgPtr (s : State) (v : Ctl) : (s.setCtl v).msgPtr = s.msgPtr := rfl
@[simp] theorem State.setCtl_tone (s : State) (v : Ctl) : (s.setCtl v).tone = s.tone := rfl
@[simp] theorem State.setCtl_ports (s : State) (v : Ctl) : (s.setCtl v).ports = s.ports := rfl
@[simp] theorem State.setCtl_script (s : State) (v : Ctl) : (s.setCtl v).script = s.script := rfl
@[simp] theorem State.setCtl_mem (s : State) (v : Ctl) : (s.setCtl v).mem = s.mem := rfl

@[simp] theorem State.setMode_ctl (s : State) (v : Mode) : (s.setMode v).ctl = s.ctl := rfl
@[simp] theorem State.setMode_mode (s : State) (v : Mode) : (s.setMode v).mode = v := rfl
@[simp] theorem State.setMode_pattern (s : State) (v : Mode) : (s.setMode v).pattern = s.pattern := rfl
@[simp] theorem State.setMode_idx (s : State) (v : Mode) : (s.setMode v).idx = s.idx := rfl
@[simp] theorem State.setMode_unit (s : State) (v : Mode) : (s.setMode v).unit = s.unit := rfl
@[simp] theorem State.setMode_deadline (s : State) (v : Mode) : (s.setMode v).deadline = s.deadline := rfl
@[simp] theorem State.setMode_msgPtr (s : State) (v : Mode) : (s.setMode v).msgPtr = s.msgPtr := rfl
@[simp] theorem State.setMode_tone (s : State) (v : Mode) : (s.setMode v).tone = s.tone := rfl
@[simp] theorem State.setMode_ports (s : State) (v : Mode) : (s.setMode v).ports = s.ports := rfl
@[simp] theorem State.setMode_script (s : State) (v : Mode) : (s.setMode v).script = s.script := rfl
@[simp] theorem State.setMode_mem (s : State) (v : Mode) : (s.setMode v).mem = s.mem := rfl

@[simp] theorem State.setPattern_ctl (s : State) (v : Byte) : (s.setPattern v).ctl = s.ctl := rfl
@[simp] theorem State.setPattern_mode (s : State) (v : Byte) : (s.setPattern v).mode = s.mode := rfl
@[simp] theorem State.setPattern_pattern (s : State) (v : Byte) : (s.setPattern v).pattern = v := rfl
@[simp] theorem State.setPattern_idx (s : State) (v : Byte) : (s.setPattern v).idx = s.idx := rfl
@[simp] theorem State.setPattern_unit (s : State) (v : Byte) : (s.setPattern v).unit = s.unit := rfl
@[simp] theorem State.setPattern_deadline (s : State) (v : Byte) : (s.setPattern v).deadline = s.deadline := rfl
@[simp] theorem State.setPattern_msgPtr (s : State) (v : Byte) : (s.setPattern v).msgPtr = s.msgPtr := rfl
@[simp] theorem State.setPattern_tone (s : State) (v : Byte) : (s.setPattern v).tone = s.tone := rfl
@[simp] theorem State.setPattern_ports (s : State) (v : Byte) : (s.setPattern v).ports = s.ports := rfl
@[simp] theorem State.setPattern_script (s : State) (v : Byte) : (s.setPattern v).script = s.script := rfl
@[simp] theorem State.setPattern_mem (s : State) (v : Byte) : (s.setPattern v).mem = s.mem := rfl

@[simp] theorem State.setIdx_ctl (s : State) (v : BitVec 3) : (s.setIdx v).ctl = s.ctl := rfl
@[simp] theorem State.setIdx_mode (s : State) (v : BitVec 3) : (s.setIdx v).mode = s.mode := rfl
@[simp] theorem State.setIdx_pattern (s : State) (v : BitVec 3) : (s.setIdx v).pattern = s.pattern := rfl
@[simp] theorem State.setIdx_idx (s : State) (v : BitVec 3) : (s.setIdx v).idx = v := rfl
@[simp] theorem State.setIdx_unit (s : State) (v : BitVec 3) : (s.setIdx v).unit = s.unit := rfl
@[simp] theorem State.setIdx_deadline (s : State) (v : BitVec 3) : (s.setIdx v).deadline = s.deadline := rfl
@[simp] theorem State.setIdx_msgPtr (s : State) (v : BitVec 3) : (s.setIdx v).msgPtr = s.msgPtr := rfl
@[simp] theorem State.setIdx_tone (s : State) (v : BitVec 3) : (s.setIdx v).tone = s.tone := rfl
@[simp] theorem State.setIdx_ports (s : State) (v : BitVec 3) : (s.setIdx v).ports = s.ports := rfl
@[simp] theorem State.setIdx_script (s : State) (v : BitVec 3) : (s.setIdx v).script = s.script := rfl
@[simp] theorem State.setIdx_mem (s : State) (v : BitVec 3) : (s.setIdx v).mem = s.mem := rfl

@[simp] theorem State.setUnit_ctl (s : State) (v : Duration) : (s.setUnit v).ctl = s.ctl := rfl
@[simp] theorem State.setUnit_mode (s : State) (v : Duration) : (s.setUnit v).mode = s.mode := rfl
@[simp] theorem State.setUnit_pattern (s : State) (v : Duration) : (s.setUnit v).pattern = s.pattern := rfl
@[simp] theorem State.setUnit_idx (s : State) (v : Duration) : (s.setUnit v).idx = s.idx := rfl
@[simp] theorem State.setUnit_unit (s : State) (v : Duration) : (s.setUnit v).unit = v := rfl
@[simp] theorem State.setUnit_deadline (s : State) (v : Duration) : (s.setUnit v).deadline = s.deadline := rfl
@[simp] theorem State.setUnit_msgPtr (s : State) (v : Duration) : (s.setUnit v).msgPtr = s.msgPtr := rfl
@[simp] theorem State.setUnit_tone (s : State) (v : Duration) : (s.setUnit v).tone = s.tone := rfl
@[simp] theorem State.setUnit_ports (s : State) (v : Duration) : (s.setUnit v).ports = s.ports := rfl
@[simp] theorem State.setUnit_script (s : State) (v : Duration) : (s.setUnit v).script = s.script := rfl
@[simp] theorem State.setUnit_mem (s : State) (v : Duration) : (s.setUnit v).mem = s.mem := rfl

@[simp] theorem State.setDeadline_ctl (s : State) (v : Tick) : (s.setDeadline v).ctl = s.ctl := rfl
@[simp] theorem State.setDeadline_mode (s : State) (v : Tick) : (s.setDeadline v).mode = s.mode := rfl
@[simp] theorem State.setDeadline_pattern (s : State) (v : Tick) : (s.setDeadline v).pattern = s.pattern := rfl
@[simp] theorem State.setDeadline_idx (s : State) (v : Tick) : (s.setDeadline v).idx = s.idx := rfl
@[simp] theorem State.setDeadline_unit (s : State) (v : Tick) : (s.setDeadline v).unit = s.unit := rfl
@[simp] theorem State.setDeadline_deadline (s : State) (v : Tick) : (s.setDeadline v).deadline = v := rfl
@[simp] theorem State.setDeadline_msgPtr (s : State) (v : Tick) : (s.setDeadline v).msgPtr = s.msgPtr := rfl
@[simp] theorem State.setDeadline_tone (s : State) (v : Tick) : (s.setDeadline v).tone = s.tone := rfl
@[simp] theorem State.setDeadline_ports (s : State) (v : Tick) : (s.setDeadline v).ports = s.ports := rfl
@[simp] theorem State.setDeadline_script (s : State) (v : Tick) : (s.setDeadline v).script = s.script := rfl
@[simp] theorem State.setDeadline_mem (s : State) (v : Tick) : (s.setDeadline v).mem = s.mem := rfl

@[simp] theorem State.setMsgPtr_ctl (s : State) (v : Addr) : (s.setMsgPtr v).ctl = s.ctl := rfl
@[simp] theorem State.setMsgPtr_mode (s : State) (v : Addr) : (s.setMsgPtr v).mode = s.mode := rfl
@[simp] theorem State.setMsgPtr_pattern (s : State) (v : Addr) : (s.setMsgPtr v).pattern = s.pattern := rfl
@[simp] theorem State.setMsgPtr_idx (s : State) (v : Addr) : (s.setMsgPtr v).idx = s.idx := rfl
@[simp] theorem State.setMsgPtr_unit (s : State) (v : Addr) : (s.setMsgPtr v).unit = s.unit := rfl
@[simp] theorem State.setMsgPtr_deadline (s : State) (v : Addr) : (s.setMsgPtr v).deadline = s.deadline := rfl
@[simp] theorem State.setMsgPtr_msgPtr (s : State) (v : Addr) : (s.setMsgPtr v).msgPtr = v := rfl
@[simp] theorem State.setMsgPtr_tone (s : State) (v : Addr) : (s.setMsgPtr v).tone = s.tone := rfl
@[simp] theorem State.setMsgPtr_ports (s : State) (v : Addr) : (s.setMsgPtr v).ports = s.ports := rfl
@[simp] theorem State.setMsgPtr_script (s : State) (v : Addr) : (s.setMsgPtr v).script = s.script := rfl
@[simp] theorem State.setMsgPtr_mem (s : State) (v : Addr) : (s.setMsgPtr v).mem = s.mem := rfl

@[simp] theorem State.setTone_ctl (s : State) (v : Bool) : (s.setTone v).ctl = s.ctl := rfl
@[simp] theorem State.setTone_mode (s : State) (v : Bool) : (s.setTone v).mode = s.mode := rfl
@[simp] theorem State.setTone_pattern (s : State) (v : Bool) : (s.setTone v).pattern = s.pattern := rfl
@[simp] theorem State.setTone_idx (s : State) (v : Bool) : (s.setTone v).idx = s.idx := rfl
@[simp] theorem State.setTone_unit (s : State) (v : Bool) : (s.setTone v).unit = s.unit := rfl
@[simp] theorem State.setTone_deadline (s : State) (v : Bool) : (s.setTone v).deadline = s.deadline := rfl
@[simp] theorem State.setTone_msgPtr (s : State) (v : Bool) : (s.setTone v).msgPtr = s.msgPtr := rfl
@[simp] theorem State.setTone_tone (s : State) (v : Bool) : (s.setTone v).tone = v := rfl
@[simp] theorem State.setTone_ports (s : State) (v : Bool) : (s.setTone v).ports = s.ports := rfl
@[simp] theorem State.setTone_script (s : State) (v : Bool) : (s.setTone v).script = s.script := rfl
@[simp] theorem State.setTone_mem (s : State) (v : Bool) : (s.setTone v).mem = s.mem := rfl

@[simp] theorem State.setPorts_ctl (s : State) (v : Ports) : (s.setPorts v).ctl = s.ctl := rfl
@[simp] theorem State.setPorts_mode (s : State) (v : Ports) : (s.setPorts v).mode = s.mode := rfl
@[simp] theorem State.setPorts_pattern (s : State) (v : Ports) : (s.setPorts v).pattern = s.pattern := rfl
@[simp] theorem State.setPorts_idx (s : State) (v : Ports) : (s.setPorts v).idx = s.idx := rfl
@[simp] theorem State.setPorts_unit (s : State) (v : Ports) : (s.setPorts v).unit = s.unit := rfl
@[simp] theorem State.setPorts_deadline (s : State) (v : Ports) : (s.setPorts v).deadline = s.deadline := rfl
@[simp] theorem State.setPorts_msgPtr (s : State) (v : Ports) : (s.setPorts v).msgPtr = s.msgPtr := rfl
@[simp] theorem State.setPorts_tone (s : State) (v : Ports) : (s.setPorts v).tone = s.tone := rfl
@[simp] theorem State.setPorts_ports (s : State) (v : Ports) : (s.setPorts v).ports = v := rfl
@[simp] theorem State.setPorts_script (s : State) (v : Ports) : (s.setPorts v).script = s.script := rfl
@[simp] theorem State.setPorts_mem (s : State) (v : Ports) : (s.setPorts v).mem = s.mem := rfl

@[simp] theorem State.setScript_ctl (s : State) (v : List EnvCycle) : (s.setScript v).ctl = s.ctl := rfl
@[simp] theorem State.setScript_mode (s : State) (v : List EnvCycle) : (s.setScript v).mode = s.mode := rfl
@[simp] theorem State.setScript_pattern (s : State) (v : List EnvCycle) : (s.setScript v).pattern = s.pattern := rfl
@[simp] theorem State.setScript_idx (s : State) (v : List EnvCycle) : (s.setScript v).idx = s.idx := rfl
@[simp] theorem State.setScript_unit (s : State) (v : List EnvCycle) : (s.setScript v).unit = s.unit := rfl
@[simp] theorem State.setScript_deadline (s : State) (v : List EnvCycle) : (s.setScript v).deadline = s.deadline := rfl
@[simp] theorem State.setScript_msgPtr (s : State) (v : List EnvCycle) : (s.setScript v).msgPtr = s.msgPtr := rfl
@[simp] theorem State.setScript_tone (s : State) (v : List EnvCycle) : (s.setScript v).tone = s.tone := rfl
@[simp] theorem State.setScript_ports (s : State) (v : List EnvCycle) : (s.setScript v).ports = s.ports := rfl
@[simp] theorem State.setScript_script (s : State) (v : List EnvCycle) : (s.setScript v).script = v := rfl
@[simp] theorem State.setScript_mem (s : State) (v : List EnvCycle) : (s.setScript v).mem = s.mem := rfl

@[simp] theorem State.setMem_ctl (s : State) (v : Memory) : (s.setMem v).ctl = s.ctl := rfl
@[simp] theorem State.setMem_mode (s : State) (v : Memory) : (s.setMem v).mode = s.mode := rfl
@[simp] theorem State.setMem_pattern (s : State) (v : Memory) : (s.setMem v).pattern = s.pattern := rfl
@[simp] theorem State.setMem_idx (s : State) (v : Memory) : (s.setMem v).idx = s.idx := rfl
@[simp] theorem State.setMem_unit (s : State) (v : Memory) : (s.setMem v).unit = s.unit := rfl
@[simp] theorem State.setMem_deadline (s : State) (v : Memory) : (s.setMem v).deadline = s.deadline := rfl
@[simp] theorem State.setMem_msgPtr (s : State) (v : Memory) : (s.setMem v).msgPtr = s.msgPtr := rfl
@[simp] theorem State.setMem_tone (s : State) (v : Memory) : (s.setMem v).tone = s.tone := rfl
@[simp] theorem State.setMem_ports (s : State) (v : Memory) : (s.setMem v).ports = s.ports := rfl
@[simp] theorem State.setMem_script (s : State) (v : Memory) : (s.setMem v).script = s.script := rfl
@[simp] theorem State.setMem_mem (s : State) (v : Memory) : (s.setMem v).mem = v := rfl

end Sys2Proof.Machine
end

