-- ==== Sys2Proof/Laws/Player.lean ====
section
/-! SUPPORT. What each shared operation of the player and the sender can do, said once. -/

namespace Sys2Proof.Machine

/-- `isSpace` is equality with the sentinel. -/
@[simp] theorem isSpace_iff (p : Byte) : isSpace p = true ↔ p = 0xEF#8 := by simp [isSpace, spacePattern]

@[simp] theorem expired_iff (now d : Tick) : expired now d = true ↔ d.toNat ≤ now.toNat := by simp [expired]

@[simp] theorem await_eq (s : State) (c : Ctl) (d : Tick) : s.await c d = { s with deadline := d, ctl := c } := rfl

@[simp] theorem finishChar_char (s : State) (u : Duration) (now : Tick) :
    s.finishChar .char u now = { s with ctl := .idle } := rfl

@[simp] theorem finishChar_msg (s : State) (u : Duration) (now : Tick) :
    s.finishChar .msg u now = { s with deadline := dl now 2 u, ctl := .charGap } := rfl

/-- `StartElem` on a 0 bit keys a DIT. -/
theorem startElem_of_dit (s : State) {p : Byte} {i : Nat} (u : Duration) (now : Tick) (h : elem p i = .dit) :
    s.startElem p i u now = { s with tone := true, deadline := dl now 1 u, ctl := .sendDit } := by
  unfold State.startElem; rw [h]; rfl

/-- `StartElem` on a 1 bit keys a DAH. -/
theorem startElem_of_dah (s : State) {p : Byte} {i : Nat} (u : Duration) (now : Tick) (h : elem p i = .dah) :
    s.startElem p i u now = { s with tone := true, deadline := dl now 3 u, ctl := .sendDah } := by
  unfold State.startElem; rw [h]; rfl

theorem elem_dit_iff (p : Byte) (i : Nat) : elem p i = .dit ↔ p.getLsbD i = false := by
  unfold elem; split <;> simp_all

theorem elem_dah_iff (p : Byte) (i : Nat) : elem p i = .dah ↔ p.getLsbD i = true := by
  unfold elem; split <;> simp_all

/-- `BeginChar` on the sentinel waits four units (R120). -/
theorem beginChar_space (s : State) {p : Byte} (m : Mode) (u : Duration) (now : Tick) (h : p = 0xEF#8) :
    s.beginChar p m u now = { s with pattern := p, deadline := dl now 4 u, ctl := .spaceWait } := by
  unfold State.beginChar; rw [if_pos ((isSpace_iff p).2 h)]; rfl

/-- `BeginChar` on a pattern without elements is done at once (R130 (a)). -/
theorem beginChar_empty (s : State) {p : Byte} (m : Mode) (u : Duration) (now : Tick) (h : p ≠ 0xEF#8)
    (h0 : nelem p = 0) : s.beginChar p m u now = State.finishChar { s with pattern := p } m u now := by
  unfold State.beginChar
  rw [if_neg (fun hs => h ((isSpace_iff p).1 hs)), if_pos h0]; rfl

/-- `BeginChar` on a pattern with elements starts the highest (R121). -/
theorem beginChar_element (s : State) {p : Byte} (m : Mode) (u : Duration) (now : Tick) (h : p ≠ 0xEF#8)
    (h0 : 1 ≤ nelem p) : s.beginChar p m u now =
      State.startElem { s with pattern := p, idx := BitVec.ofNat 3 (nelem p - 1) } p (nelem p - 1) u now := by
  unfold State.beginChar
  rw [if_neg (fun hs => h ((isSpace_iff p).1 hs)), if_neg (by omega)]; rfl

/-- Everything `BeginChar` can do. -/
theorem beginChar_inversion (s : State) (p : Byte) (m : Mode) (u : Duration) (now : Tick) :
    (p = 0xEF#8 ∧ s.beginChar p m u now = { s with pattern := p, deadline := dl now 4 u, ctl := .spaceWait })
    ∨ (p ≠ 0xEF#8 ∧ nelem p = 0 ∧ s.beginChar p m u now = State.finishChar { s with pattern := p } m u now)
    ∨ (p ≠ 0xEF#8 ∧ 1 ≤ nelem p ∧ p.getLsbD (nelem p - 1) = false ∧ s.beginChar p m u now =
        { s with pattern := p, idx := BitVec.ofNat 3 (nelem p - 1), tone := true, deadline := dl now 1 u, ctl := .sendDit })
    ∨ (p ≠ 0xEF#8 ∧ 1 ≤ nelem p ∧ p.getLsbD (nelem p - 1) = true ∧ s.beginChar p m u now =
        { s with pattern := p, idx := BitVec.ofNat 3 (nelem p - 1), tone := true, deadline := dl now 3 u, ctl := .sendDah }) := by
  by_cases h : p = 0xEF#8
  · exact .inl ⟨h, beginChar_space s m u now h⟩
  by_cases h0 : nelem p = 0
  · exact .inr (.inl ⟨h, h0, beginChar_empty s m u now h h0⟩)
  have h1 : 1 ≤ nelem p := by omega
  cases hb : p.getLsbD (nelem p - 1) with
  | false =>
    exact .inr (.inr (.inl ⟨h, h1, rfl, by
      rw [beginChar_element s m u now h h1, startElem_of_dit _ u now ((elem_dit_iff _ _).2 hb)]⟩))
  | true =>
    exact .inr (.inr (.inr ⟨h, h1, rfl, by
      rw [beginChar_element s m u now h h1, startElem_of_dah _ u now ((elem_dah_iff _ _).2 hb)]⟩))

/-- `nelem` is at most 7, so that `idx` holds every element index. -/
theorem nelem_le (p : Byte) : nelem p ≤ 7 := by
  revert p; decide

end Sys2Proof.Machine
end

