-- ==== Sys2Proof/Laws/Step.lean ====
section
/-! SUPPORT. The step by the value of `ctl`, and runs of steps. -/

namespace Sys2Proof.Machine

/-- An edge with `rst == 1`. -/
theorem step_reset {s : State} (h : s.ports.rst = true) : step s = .next s.resetRegisters.nextCycle := by
  simp [step, edge, h, thenNextCycle]

/-- An edge with `ctl == IDLE`. -/
theorem step_idle {s : State} (h : s.ports.rst = false) (hc : s.ctl = .idle) :
    step s = thenNextCycle (exec (decodeCmd s.ports.cmd) s) := by
  simp [step, edge, h, hc, commandTaken]

/-- An edge in a waiting state before its deadline. -/
theorem step_waiting {s : State} (h : s.ports.rst = false) (hc : s.ctl ≠ .idle)
    (hd : s.ports.now.toNat < s.deadline.toNat) : step s = .next s.nextCycle := by
  have he : expired s.ports.now s.deadline = false := by simp [expired]; omega
  cases hs : s.ctl <;>
    simp_all [step, edge, State.elementEdge, State.gapEdge, State.spaceEdge, charGapEdge, thenNextCycle]

/-- The expiry of SEND_DIT or SEND_DAH. -/
theorem step_element_expiry {s : State} (h : s.ports.rst = false) (hc : s.ctl = .sendDit ∨ s.ctl = .sendDah)
    (hd : s.deadline.toNat ≤ s.ports.now.toNat) : step s = .next s.elementExpiry.nextCycle := by
  rcases hc with hc | hc <;> simp [step, edge, h, hc, State.elementEdge, hd, thenNextCycle]

/-- The expiry of SEND_INTER_ELEMENT. -/
theorem step_gap_expiry {s : State} (h : s.ports.rst = false) (hc : s.ctl = .sendInterElement)
    (hd : s.deadline.toNat ≤ s.ports.now.toNat) : step s = .next s.gapExpiry.nextCycle := by
  simp [step, edge, h, hc, State.gapEdge, hd, thenNextCycle]

/-- The expiry of SPACE_WAIT. -/
theorem step_space_expiry {s : State} (h : s.ports.rst = false) (hc : s.ctl = .spaceWait)
    (hd : s.deadline.toNat ≤ s.ports.now.toNat) : step s = .next s.spaceExpiry.nextCycle := by
  simp [step, edge, h, hc, State.spaceEdge, hd, thenNextCycle]

/-- The expiry of CHAR_GAP takes the instruction at `msg_ptr`. -/
theorem step_char_gap_expiry {s : State} (h : s.ports.rst = false) (hc : s.ctl = .charGap)
    (hd : s.deadline.toNat ≤ s.ports.now.toNat) :
    step s = thenNextCycle (exec (decodeChar (memRead s.mem s.msgPtr.toNat)) s) := by
  simp [step, edge, h, hc, charGapEdge, hd, messageTaken, msgData, msgRead, msgAddr]

/-- A run of `k + 1` steps whose first step answers a next state. -/
theorem core_run_succ (M : Host.Core) {s t : M.State} (k : Nat) (h : M.step s = .next t) :
    M.run (k + 1) s = M.run k t := by
  have hrun : M.run (k + 1) s = match M.step s with
      | .next s' => M.run k s'
      | .fault r => .fault r
      | .refused r => .refused r := rfl
  rw [hrun, h]

/-- `k + 1` edges are one edge and then `k`. -/
theorem run_succ_of_next {s t : State} {k : Nat} (h : step s = .next t) :
    Sys2Proof.core.run (k + 1) s = Sys2Proof.core.run k t :=
  core_run_succ Sys2Proof.core k h

/-- The registers after the environment's move are those before it. -/
theorem nextCycle_registers (s : State) : SameRegisters s s.nextCycle := by
  unfold State.nextCycle
  split <;> constructor <;> rfl

end Sys2Proof.Machine
end

