-- ==== Sys2Proof/Laws/Timeline.lean ====
section
/-! SUPPORT. The environment's coming cycles and the intervals of a timeline, one case at a time. -/

namespace Sys2Proof.Machine

@[simp] theorem cycleAt_zero (s : State) : s.cycleAt 0 = s := rfl
@[simp] theorem cycleAt_succ (s : State) (k : Nat) : s.cycleAt (k + 1) = s.nextCycle.cycleAt k := rfl
theorem nowAt_zero (s : State) : s.nowAt 0 = s.ports.now.toNat := rfl
theorem nowAt_succ (s : State) (k : Nat) : s.nowAt (k + 1) = s.nextCycle.nowAt k := rfl

/-- The edge after the `k`-th sees the environment one cycle further. -/
theorem cycleAt_nextCycle (s : State) (k : Nat) : s.nextCycle.cycleAt k = (s.cycleAt k).nextCycle := by
  induction k generalizing s with
  | zero => rfl
  | succ k ih => exact ih s.nextCycle

@[simp] theorem unitsOf_nil : unitsOf [] = 0 := rfl
@[simp] theorem unitsOf_cons (i : Interval) (is : List Interval) : unitsOf (i :: is) = i.units + unitsOf is := by
  simp [unitsOf]
@[simp] theorem unitsOf_append (is js : List Interval) : unitsOf (is ++ js) = unitsOf is + unitsOf js := by
  simp [unitsOf]

@[simp] theorem elementIntervals_nil : elementIntervals [] = [] := rfl
@[simp] theorem elementIntervals_cons (e : Element) (es : List Element) :
    elementIntervals (e :: es) = ⟨true, e.units⟩ :: ⟨false, 1⟩ :: elementIntervals es := rfl
@[simp] theorem messageIntervals_nil : messageIntervals [] = [] := rfl
@[simp] theorem messageIntervals_cons (c : Byte) (cs : List Byte) :
    messageIntervals (c :: cs) = characterIntervals (romRead c) ++ ⟨false, 2⟩ :: messageIntervals cs := by
  simp [messageIntervals]

/-- Inside the first interval the level is its own. -/
theorem toneAt_within {i : Interval} {is : List Interval} {u x : Nat} (h : x < i.units * u) :
    toneAt (i :: is) u x = i.on := if_pos h

/-- Past the first interval the level is that of the rest. -/
theorem toneAt_beyond {i : Interval} {is : List Interval} {u x : Nat} (h : i.units * u ≤ x) :
    toneAt (i :: is) u x = toneAt is u (x - i.units * u) := if_neg (Nat.not_lt.2 h)

end Sys2Proof.Machine
end

