-- ==== Sys2Proof/Tests/Slice0.lean ====
section
/-! SUPPORT. Tests: words written out from the spec's encodings, ill-formed terms, single edges whose
results stand in 95_test_vectors.md, and for every statement with hypotheses a state that meets them. -/

namespace Sys2Proof.Tests

open Sys2Proof.Machine

/-! ## Words -/

/-- The letters' codes of 40_code_table.md R65 to R90. -/
theorem test_letter_words :
    decodeChar 0b01000001#8 = .chA ∧ decodeChar 0b01000010#8 = .chB ∧ decodeChar 0b01000011#8 = .chC
    ∧ decodeChar 0b01000100#8 = .chD ∧ decodeChar 0b01000101#8 = .chE ∧ decodeChar 0b01000110#8 = .chF
    ∧ decodeChar 0b01000111#8 = .chG ∧ decodeChar 0b01001000#8 = .chH ∧ decodeChar 0b01001001#8 = .chI
    ∧ decodeChar 0b01001010#8 = .chJ ∧ decodeChar 0b01001011#8 = .chK ∧ decodeChar 0b01001100#8 = .chL
    ∧ decodeChar 0b01001101#8 = .chM ∧ decodeChar 0b01001110#8 = .chN ∧ decodeChar 0b01001111#8 = .chO
    ∧ decodeChar 0b01010000#8 = .chP ∧ decodeChar 0b01010001#8 = .chQ ∧ decodeChar 0b01010010#8 = .chR
    ∧ decodeChar 0b01010011#8 = .chS ∧ decodeChar 0b01010100#8 = .chT ∧ decodeChar 0b01010101#8 = .chU
    ∧ decodeChar 0b01010110#8 = .chV ∧ decodeChar 0b01010111#8 = .chW ∧ decodeChar 0b01011000#8 = .chX
    ∧ decodeChar 0b01011001#8 = .chY ∧ decodeChar 0b01011010#8 = .chZ := by decide

/-- The digits' codes of R91 to R100. -/
theorem test_digit_words :
    decodeChar 0b00110000#8 = .dig0 ∧ decodeChar 0b00110001#8 = .dig1 ∧ decodeChar 0b00110010#8 = .dig2
    ∧ decodeChar 0b00110011#8 = .dig3 ∧ decodeChar 0b00110100#8 = .dig4 ∧ decodeChar 0b00110101#8 = .dig5
    ∧ decodeChar 0b00110110#8 = .dig6 ∧ decodeChar 0b00110111#8 = .dig7 ∧ decodeChar 0b00111000#8 = .dig8
    ∧ decodeChar 0b00111001#8 = .dig9 := by decide

/-- The codes of R101 to R105, the terminator (30_encoding.md R56) and three of the 215 other bytes (R106). -/
theorem test_punctuation_words :
    decodeChar 0b00100000#8 = .space ∧ decodeChar 0b00101111#8 = .slash
    ∧ decodeChar 0b00111111#8 = .question ∧ decodeChar 0b00101010#8 = .star
    ∧ decodeChar 0b00100011#8 = .hash ∧ decodeChar 0b00000000#8 = .msgTerm
    ∧ decodeChar 0b01100001#8 = .fallback 0b01100001#8 ∧ decodeChar 0b11111111#8 = .fallback 0b11111111#8
    ∧ decodeChar 0b00000001#8 = .fallback 0b00000001#8 := by decide

/-- The layouts of 30_encoding.md R47. -/
theorem test_pattern_words :
    decodePat 0b11101111#8 = .patSpace ∧ decodePat 0b11111101#8 = .pat1 0b1#1
    ∧ decodePat 0b11111001#8 = .pat2 0b01#2 ∧ decodePat 0b11110100#8 = .pat3 0b100#3
    ∧ decodePat 0b11101101#8 = .pat4 0b1101#4 ∧ decodePat 0b11011000#8 = .pat5 0b11000#5
    ∧ decodePat 0b10001100#8 = .pat6 0b001100#6 ∧ decodePat 0b11111110#8 = .pat0
    ∧ decodePat 0b11111111#8 = .patNoStart ∧ decodePat 0b01010110#8 = .pat7 0b1010110#7 := by decide

/-- The commands of 30_encoding.md R57. -/
theorem test_command_words :
    decodeCmd 0b00#2 = .nop ∧ decodeCmd 0b01#2 = .play ∧ decodeCmd 0b10#2 = .send
    ∧ decodeCmd 0b11#2 = .reserved := by decide

/-- The bytes of a message are read one at a time, in order (R53). -/
theorem test_decode_leaves_the_rest : decode .char8 [0x4B#8, 0x31#8, 0x00#8] = .ok (.chK, [0x31#8, 0x00#8]) := by rfl

/-- No byte, no word; a byte above 3 is no command (log 18). -/
theorem test_decode_rejects : decode .char8 [] = .error .noWord ∧ decode .pat8 [] = .error .noWord
    ∧ decode .cmd2 [] = .error .noWord ∧ decode .cmd2 [0x04#8] = .error (.commandTooWide 0x04#8) :=
  ⟨rfl, rfl, rfl, rfl⟩

/-! ## Ill-formed terms -/

/-- FALLBACK of a supported code, at both ends of each range, is refused. -/
theorem test_fallback_of_a_supported_code :
    ∀ c ∈ [0x20#8, 0x23#8, 0x2A#8, 0x2F#8, 0x3F#8, 0x30#8, 0x39#8, 0x41#8, 0x5A#8],
      (Instr.fallback c).wellFormed = false := by decide

/-- FALLBACK of the terminator is refused. -/
theorem test_fallback_of_the_terminator : (Instr.fallback 0x00#8).wellFormed = false := by decide

/-- PAT_4 with the sentinel's bits is refused; its neighbour `---.` is not. -/
theorem test_pat4_of_four_dahs :
    (Instr.pat4 0b1111#4).wellFormed = false ∧ (Instr.pat4 0b1110#4).wellFormed = true := by decide

/-- The codes next to the supported ranges are FALLBACK (V-D3). -/
theorem test_fallback_of_the_neighbours :
    ∀ c ∈ [0x2E#8, 0x3A#8, 0x40#8, 0x5B#8, 0x01#8, 0xFF#8], (Instr.fallback c).wellFormed = true := by decide

/-! ## Single edges -/

/-- A state after reset whose next edge sees these levels, with `m` in the message memory. -/
def idleAt (now : Tick) (cmd : BitVec 2) (unit : Duration) (pat : Byte) (base : Addr) (m : Memory) : State :=
  { State.reset with
    ports := { Ports.low with now := now, cmd := cmd, unitIn := unit, patIn := pat, msgBase := base }
    mem := m }

/-- A state of a call in progress: `ctl`, `mode`, `pattern`, `idx`, the unit, the deadline, and the next
edge's `NOW`. -/
def busyAt (c : Ctl) (m : Mode) (p : Byte) (i : BitVec 3) (u : Duration) (d now : Tick) (b : Memory) : State :=
  { State.reset with
    ctl := c, mode := m, pattern := p, idx := i, unit := u, deadline := d
    tone := decide (c = .sendDit ∨ c = .sendDah), ports := { Ports.low with now := now }, mem := b }

/-- The registers in the order of 95_test_vectors.md. -/
structure Registers where
  /-- `ctl` by its code -/
  ctl : BitVec 3
  /-- `mode` by its code -/
  mode : BitVec 1
  /-- `pattern` -/
  pattern : Byte
  /-- `idx` -/
  idx : BitVec 3
  /-- `unit` -/
  unit : Duration
  /-- `deadline` -/
  deadline : Tick
  /-- `msg_ptr` -/
  msgPtr : Addr
  /-- `tone` -/
  tone : Bool
  deriving DecidableEq, Repr

/-- The registers an outcome leaves. -/
def registers : Host.Outcome State Fault Refusal → Option Registers
  | .next s => some ⟨s.ctl.code, s.mode.code, s.pattern, s.idx, s.unit, s.deadline, s.msgPtr, s.tone⟩
  | .fault _ => none
  | .refused _ => none

/-- V-D7, edge 0: PLAY of `A`, unit 2, at 10. -/
theorem test_play_a : registers (step (idleAt 10 0b01#2 2 0xF9#8 0 [])) = some ⟨1, 0, 0xF9, 1, 2, 12, 0, true⟩ := by
  decide

/-- V-S9: PLAY of the sentinel, unit 100. -/
theorem test_play_space : registers (step (idleAt 0 0b01#2 100 0xEF#8 0 [])) = some ⟨4, 0, 0xEF, 0, 100, 400, 0, false⟩ := by
  decide

/-- V-D12: PLAY of 0xFE and of 0xFF is over at once, with `idx` and `deadline` as they were. -/
theorem test_play_no_element :
    registers (step (idleAt 7 0b01#2 9 0xFE#8 0 [])) = some ⟨0, 0, 0xFE, 0, 9, 0, 0, false⟩
    ∧ registers (step (idleAt 7 0b01#2 9 0xFF#8 0 [])) = some ⟨0, 0, 0xFF, 0, 9, 0, 0, false⟩ := by decide

/-- V-D12: PLAY of 0x7F begins with the DAH at bit 6. -/
theorem test_play_seven : registers (step (idleAt 0 0b01#2 1 0x7F#8 0 [])) = some ⟨2, 0, 0x7F, 6, 1, 3, 0, true⟩ := by
  decide

/-- V-D15: the deadline of `T` wraps. -/
theorem test_play_wraps :
    registers (step (idleAt 0xFFFFFFCE#32 0b01#2 100 0xFD#8 0 [])) = some ⟨2, 0, 0xFD, 0, 100, 250, 0, true⟩ := by
  decide

/-- V-D16, edge 0: SEND of `E` at 0x0100, unit 3. -/
theorem test_send_e :
    registers (step (idleAt 0 0b10#2 3 0 0x0100#16 [(0x0100, 0x45#8)])) = some ⟨1, 1, 0xFC, 0, 3, 3, 0x0101, true⟩ := by
  decide

/-- V-D17: the empty message. -/
theorem test_send_empty : registers (step (idleAt 0 0b10#2 100 0 0x0300#16 [])) = some ⟨0, 1, 0xEF, 0, 100, 0, 0x0300, false⟩ := by
  decide

/-- V-D23, edge 0: the address wraps. -/
theorem test_send_wraps :
    registers (step (idleAt 0 0b10#2 1 0 0xFFFF#16 [(0xFFFF, 0x45#8)])) = some ⟨1, 1, 0xFC, 0, 1, 1, 0, true⟩ := by
  decide

/-- V-D26: NOP and RESERVED change no register. -/
theorem test_nop_and_reserved :
    registers (step (idleAt 5 0b00#2 7 0xF9#8 3 [])) = registers (.next State.reset)
    ∧ registers (step (idleAt 5 0b11#2 7 0xF9#8 3 [])) = registers (.next State.reset) := by decide

/-- V-D7, edges 1, 2 and 4: below the deadline nothing, at it the tone ends, after the gap the DAH begins. -/
theorem test_player_edges :
    registers (step (busyAt .sendDit .char 0xF9#8 1 2 12 11 [])) = some ⟨1, 0, 0xF9, 1, 2, 12, 0, true⟩
    ∧ registers (step (busyAt .sendDit .char 0xF9#8 1 2 12 12 [])) = some ⟨3, 0, 0xF9, 1, 2, 14, 0, false⟩
    ∧ registers (step (busyAt .sendInterElement .char 0xF9#8 1 2 14 14 [])) = some ⟨2, 0, 0xF9, 0, 2, 20, 0, true⟩
    ∧ registers (step (busyAt .sendInterElement .char 0xF9#8 0 2 22 22 [])) = some ⟨0, 0, 0xF9, 0, 2, 22, 0, false⟩ := by
  decide

/-- V-S7 at 600 and at 800: `DONE` of `S`, then `O` is fetched. -/
theorem test_char_gap :
    registers (step (busyAt .sendInterElement .msg 0xF0#8 0 100 600 600 [])) = some ⟨5, 1, 0xF0, 0, 100, 800, 0, false⟩
    ∧ registers (step (busyAt .charGap .msg 0xF0#8 0 100 800 800 [(0, 0x4F#8)])) = some ⟨2, 1, 0xF7, 2, 100, 1100, 1, true⟩ := by
  decide

/-- V-D18 at 40 and V-D19: a fallback byte is a space of 4 units. -/
theorem test_fallback_edge :
    registers (step (busyAt .charGap .msg 0xF9#8 0 5 40 40 [(0, 0x40#8)])) = some ⟨4, 1, 0xEF, 0, 5, 60, 1, false⟩ := by
  decide

/-- The decoder port, with a pattern on it. -/
def decoderPort (p : Byte) : Bool × Bool × BitVec 3 × BitVec 7 :=
  let s := { State.reset with ports := { Ports.low with decPat := p } }
  (decSpace s, decNoStart s, decLen s, decElems s)

/-- V-D5: the decoder port for `Q`, the sentinel, 0xFF and 0x55. -/
theorem test_decoder_port :
    decoderPort 0xED#8 = (false, false, 4, 0b0001101) ∧ decoderPort 0xEF#8 = (true, false, 0, 0)
    ∧ decoderPort 0xFF#8 = (false, true, 0, 0) ∧ decoderPort 0x55#8 = (false, false, 7, 0b1010101) := by
  decide

/-- A table word is placed where the next edge takes it: `K` through SEND, the pattern of `Q` through PLAY. -/
theorem test_placed_words :
    registers (step (State.reset.withFetchWord 8 0x4B)) = some ⟨2, 1, 0xF5, 2, 0, 0, 1, true⟩
    ∧ registers (step (State.reset.withFetchWord 8 0xED)) = some ⟨2, 0, 0xED, 3, 0, 0, 0, true⟩ := by decide

/-! ## The hypotheses of the statements can be met -/

/-- A step answers some state. -/
def Answers (s : State) : Prop := ∃ t, step s = .next t

theorem witness_DecodingAnEncodedInstructionGivesItBack :
    (Instr.pat4 0b1110#4).wellFormed = true ∧ (Instr.fallback 0x01#8).wellFormed = true
    ∧ Instr.reserved.wellFormed = true := by decide

theorem witness_DecodedWordsAreTheirEncodings :
    decode .char8 [0x5A#8] = .ok (.chZ, []) ∧ decode .pat8 [0x7F#8] = .ok (.pat7 0b1111111#7, [])
    ∧ decode .cmd2 [0x03#8] = .ok (.reserved, []) := ⟨rfl, rfl, rfl⟩

theorem witness_MessageByteHasThreeOutcomes :
    (0x5A#8 ≠ 0x00#8 ∧ supportedCode 0x5A#8 = true) ∧ (0x5B#8 ≠ 0x00#8 ∧ supportedCode 0x5B#8 = false) := by decide

theorem witness_UnsupportedCodesPlayAsSpace :
    supportedCode 0x00#8 = false ∧ (supportedCode 0xFF#8 = false ∧ 0xFF#8 ≠ 0x00#8) := by decide

theorem witness_CodeTableIsInTheDocumentedDomain :
    (supportedCode 0x3F#8 = true ∧ 0x3F#8 ∉ [0x20#8, 0x2A#8, 0x23#8] ∧ romRead 0x3F#8 = romRead 0x3F#8)
    ∧ romRead 0x3F#8 ≠ 0xEF#8 ∧ romRead 0x45#8 ≠ 0xEF#8 := by decide

theorem witness_PatternBytesClassify :
    (0x80 ≤ (0x80#8).toNat ∧ (0x80#8).toNat ≤ 0xFD ∧ 0x80#8 ≠ 0xEF#8)
    ∧ (0x80 ≤ (0xFD#8).toNat ∧ (0xFD#8).toNat ≤ 0xFD ∧ 0xFD#8 ≠ 0xEF#8)
    ∧ (0x7F#8).toNat < 0x80 ∧ (0x00#8).toNat < 0x80 := by decide

theorem witness_StringsHaveOnePattern :
    (1 ≤ [Element.dah].length ∧ [Element.dah].length ≤ 6 ∧ [Element.dah] ≠ [.dah, .dah, .dah, .dah]
      ∧ (0xFD#8).getLsbD 7 = true ∧ elementsOf 0xFD#8 = [.dah])
    ∧ (List.replicate 6 Element.dah).length = 6 ∧ (List.replicate 6 Element.dah)[6 - 1]? = some .dah
    ∧ romRead 0x3F#8 ≠ 0xEF#8 := by decide

theorem witness_DecoderPortShowsThePattern :
    ∀ p ∈ [0xFE#8, 0x7F#8, 0xFF#8, 0xF0#8, 0xED#8, 0xEF#8, 0x8C#8],
      ({ State.reset with ports := { Ports.low with decPat := p } } : State).ports.decPat = p :=
  fun _ _ => rfl

theorem witness_NopAndReservedChangeNothing :
    let s := idleAt 5 0b00#2 7 0xF9#8 3 []
    let r := idleAt 5 0b11#2 7 0xF9#8 3 []
    (s.ports.rst = false ∧ s.ctl = .idle ∧ s.ports.cmd = 0b00#2)
    ∧ r.ports.rst = false ∧ r.ctl = .idle ∧ r.ports.cmd = 0b11#2 := by decide

/-- Each clause of PlayBeginsThePattern at the ends of its range; the first four exclude each other. -/
theorem witness_PlayBeginsThePattern :
    (∀ p : Byte, (idleAt 0 0b01#2 1 p 0 []).ctl = .idle ∧ (idleAt 0 0b01#2 1 p 0 []).ports.patIn = p)
    ∧ (∀ p ∈ [0x00#8, 0x3F#8, 0xFC#8, 0x80#8, 0xF0#8], p ≠ 0xEF#8 ∧ 1 ≤ nelem p ∧ p.getLsbD (nelem p - 1) = false)
    ∧ (∀ p ∈ [0x40#8, 0x7F#8, 0xFD#8, 0xBF#8, 0xEE#8], p ≠ 0xEF#8 ∧ 1 ≤ nelem p ∧ p.getLsbD (nelem p - 1) = true)
    ∧ (0xEF#8 ≠ 0xFE#8 ∧ 0xEF#8 ≠ 0xFF#8 ∧ nelem 0xFE#8 = 0 ∧ nelem 0xFF#8 = 0) :=
  ⟨fun _ => ⟨rfl, rfl⟩, by decide, by decide, by decide⟩

/-- Each clause of SendFetchesTheFirstCharacter: the terminator, a space, `E`, `T` at the two ends of memory. -/
theorem witness_SendFetchesTheFirstCharacter :
    let first (base : Addr) (m : Memory) := memRead m (idleAt 0 0b10#2 1 0 base m).ports.msgBase.toNat
    (idleAt 0 0b10#2 1 0 0 []).ctl = .idle ∧ first 0 [] = 0x00#8
    ∧ (first 0 [(0, 0x20#8)] ≠ 0x00#8 ∧ romRead (first 0 [(0, 0x20#8)]) = 0xEF#8)
    ∧ (let c := first 0xFFFF [(0xFFFF, 0x45#8)]
       c ≠ 0x00#8 ∧ romRead c ≠ 0xEF#8 ∧ (romRead c).getLsbD (nelem (romRead c) - 1) = false)
    ∧ (let c := first 0 [(0, 0x54#8)]
       c ≠ 0x00#8 ∧ romRead c ≠ 0xEF#8 ∧ (romRead c).getLsbD (nelem (romRead c) - 1) = true) := by decide

theorem witness_PlayRunsThePatternInstruction : (idleAt 10 0b01#2 2 0xF9#8 0 []).ctl = .idle := by decide

theorem witness_SendRunsTheFetchedInstruction : (idleAt 0 0b10#2 3 0 0x0100#16 [(0x0100, 0x45#8)]).ctl = .idle := by
  decide

theorem witness_CharactersRunTheirPatterns : 0x4B#8 ≠ 0x00#8 := by decide

theorem witness_CommandsAreIgnoredWhileBusy : (busyAt .sendDit .char 0xFC#8 0 1 1 1 []).ctl ≠ .idle := by decide

theorem witness_PatternsBeginTheirFirstElement : 0b1110#4 ≠ 0b1111#4 ∧ 0b0000#4 ≠ 0b1111#4 := by decide

theorem witness_PatternsWithoutElements :
    State.reset.mode = .char ∧ (busyAt .charGap .msg 0xF0#8 0 100 800 800 []).mode = .msg := by decide

theorem witness_EmptyMessageReturnsAtOnce :
    let s := idleAt 0 0b10#2 100 0 0x0300#16 []
    s.ports.rst = false ∧ s.ctl = .idle ∧ s.ports.cmd = 0b10#2 ∧ memRead s.mem s.ports.msgBase.toNat = 0x00#8 := by
  decide

/-- At the deadline and one tick before it, in both states. -/
theorem witness_ToneEndsAtTheDeadline :
    (∀ c ∈ [Ctl.sendDit, .sendDah],
      let s := busyAt c .char 0xF9#8 1 2 12 12 []
      s.ports.rst = false ∧ (s.ctl = .sendDit ∨ s.ctl = .sendDah) ∧ s.deadline.toNat ≤ s.ports.now.toNat)
    ∧ (∀ c ∈ [Ctl.sendDit, .sendDah],
      let s := busyAt c .char 0xF9#8 1 2 12 11 []
      s.ports.rst = false ∧ (s.ctl = .sendDit ∨ s.ctl = .sendDah) ∧ s.ports.now.toNat < s.deadline.toNat) := by decide

/-- The five clauses, at the deadline and one tick before it. -/
theorem witness_GapEndsWithTheNextElementOrDone :
    let s (m : Mode) (i : BitVec 3) (now : Tick) := busyAt .sendInterElement m 0xFA#8 i 2 14 now []
    (∀ m ∈ [Mode.char, .msg], (s m 0 14).ports.rst = false ∧ (s m 0 14).ctl = .sendInterElement)
    ∧ (s .char 0 13).ports.now.toNat < (s .char 0 13).deadline.toNat
    ∧ ((s .char 0 14).deadline.toNat ≤ (s .char 0 14).ports.now.toNat ∧ (s .char 0 14).idx = 0 ∧ (s .char 0 14).mode = .char)
    ∧ ((s .msg 0 14).deadline.toNat ≤ (s .msg 0 14).ports.now.toNat ∧ (s .msg 0 14).idx = 0 ∧ (s .msg 0 14).mode = .msg)
    ∧ ((s .char 1 14).idx ≠ 0 ∧ (s .char 1 14).pattern.getLsbD ((s .char 1 14).idx.toNat - 1) = false)
    ∧ ((s .char 2 14).idx ≠ 0 ∧ (s .char 2 14).pattern.getLsbD ((s .char 2 14).idx.toNat - 1) = true) := by decide

theorem witness_SpaceWaitEndsSilently :
    let s (m : Mode) (now : Tick) := busyAt .spaceWait m 0xEF#8 0 10 80 now []
    ((s .char 79).ports.rst = false ∧ (s .char 79).ctl = .spaceWait ∧ (s .char 79).ports.now.toNat < (s .char 79).deadline.toNat)
    ∧ ((s .char 80).deadline.toNat ≤ (s .char 80).ports.now.toNat ∧ (s .char 80).mode = .char)
    ∧ ((s .msg 80).deadline.toNat ≤ (s .msg 80).ports.now.toNat ∧ (s .msg 80).mode = .msg) := by decide

/-- Waiting, the terminator, a space, an element. -/
theorem witness_CharGapEndsWithTheFetch :
    let s (b : Memory) (now : Tick) := busyAt .charGap .msg 0xFC#8 0 10 40 now b
    ((s [] 39).ports.rst = false ∧ (s [] 39).ctl = .charGap ∧ (s [] 39).ports.now.toNat < (s [] 39).deadline.toNat)
    ∧ ((s [] 40).deadline.toNat ≤ (s [] 40).ports.now.toNat ∧ memRead (s [] 40).mem (s [] 40).msgPtr.toNat = 0x00#8)
    ∧ (let c := memRead (s [(0, 0x20#8)] 40).mem (s [(0, 0x20#8)] 40).msgPtr.toNat
       c ≠ 0x00#8 ∧ romRead c = 0xEF#8)
    ∧ (let c := memRead (s [(0, 0x4F#8)] 40).mem (s [(0, 0x4F#8)] 40).msgPtr.toNat
       c ≠ 0x00#8 ∧ romRead c ≠ 0xEF#8) := by decide

theorem witness_PlayerProceduresWriteWhatTheyName :
    (0xF9#8).getLsbD 1 = false ∧ (0xF9#8).getLsbD 0 = true := by decide

theorem witness_DeadlinesAreExactModuloTheClock : (1 ≤ 1 ∧ 1 ≤ 4) ∧ 1 ≤ 4 ∧ 4 ≤ 4 := by decide

/-- A reset in the middle of an element. -/
theorem witness_ResetWinsOverEverything :
    let s := busyAt .sendDah .char 0xF7#8 2 5 15 3 []
    let r := { s with ports := { s.ports with rst := true, cmd := 0b01#2 } }
    r.ports.rst = true ∧ Answers r := ⟨rfl, _, rfl⟩

theorem witness_OutputsFollowTheRegisters :
    State.reset.ctl = .idle ∧ (busyAt .sendDit .char 0xFC#8 0 1 1 1 []).ctl ≠ .idle := by decide

/-- Rows 1 to 5 and 6 to 9 of R147. -/
theorem witness_EveryEdgeFollowsTheTransitionTable_idle :
    (∀ k ∈ [0b00#2, 0b11#2, 0b01#2, 0b10#2], ∀ p ∈ [0xEF#8, 0xFE#8, 0xFF#8, 0xFC#8, 0xFD#8, 0x00#8, 0x7F#8],
      let s := idleAt 0 k 1 p 0 []
      s.ports.rst = false ∧ s.ctl = .idle ∧ s.ports.cmd = k ∧ s.ports.patIn = p)
    ∧ (1 ≤ nelem 0xFC#8 ∧ (0xFC#8).getLsbD (nelem 0xFC#8 - 1) = false)
    ∧ (1 ≤ nelem 0xFD#8 ∧ (0xFD#8).getLsbD (nelem 0xFD#8 - 1) = true)
    ∧ (let s := idleAt 0 0b10#2 1 0 0 []; memRead s.mem (msgAddr s).toNat = 0x00#8)
    ∧ (let s := idleAt 0 0b10#2 1 0 0 [(0, 0x61#8)]; let c := memRead s.mem (msgAddr s).toNat
       c ≠ 0x00#8 ∧ romRead c = 0xEF#8)
    ∧ (let s := idleAt 0 0b10#2 1 0 0 [(0, 0x45#8)]; let c := memRead s.mem (msgAddr s).toNat; let p := romRead c
       c ≠ 0x00#8 ∧ p ≠ 0xEF#8 ∧ p.getLsbD (nelem p - 1) = false)
    ∧ (let s := idleAt 0 0b10#2 1 0 0 [(0, 0x54#8)]; let c := memRead s.mem (msgAddr s).toNat; let p := romRead c
       c ≠ 0x00#8 ∧ p ≠ 0xEF#8 ∧ p.getLsbD (nelem p - 1) = true) := by decide

/-- Rows 10 to 24 of R147: each waiting state below its deadline and at it, in both modes, with each of
the four kinds of byte at `msg_ptr`. -/
theorem witness_EveryEdgeFollowsTheTransitionTable_waiting :
    (∀ c ∈ [Ctl.sendDit, .sendDah, .sendInterElement, .spaceWait, .charGap], ∀ m ∈ [Mode.char, .msg],
      let s (now : Tick) := busyAt c m 0xFA#8 2 2 14 now []
      (s 13).ports.rst = false ∧ (s 13).ctl = c ∧ (s 13).mode = m ∧ (s 13).ports.now.toNat < (s 13).deadline.toNat
      ∧ (s 14).ports.rst = false ∧ (s 14).ctl = c ∧ (s 14).mode = m ∧ (s 14).deadline.toNat ≤ (s 14).ports.now.toNat)
    ∧ ((2#3 ≠ 0 ∧ (0xFA#8).getLsbD ((2#3).toNat - 1) = true) ∧ (1#3 ≠ 0 ∧ (0xFA#8).getLsbD ((1#3).toNat - 1) = false))
    ∧ (let byte (b : Memory) := memRead b (msgAddr (busyAt .charGap .msg 0xFA#8 0 2 14 14 b)).toNat
       byte [] = 0x00#8
       ∧ (byte [(0, 0x20#8)] ≠ 0x00#8 ∧ romRead (byte [(0, 0x20#8)]) = 0xEF#8)
       ∧ (let p := romRead (byte [(0, 0x45#8)])
          byte [(0, 0x45#8)] ≠ 0x00#8 ∧ p ≠ 0xEF#8 ∧ p.getLsbD (nelem p - 1) = false)
       ∧ (let p := romRead (byte [(0, 0x54#8)])
          byte [(0, 0x54#8)] ≠ 0x00#8 ∧ p ≠ 0xEF#8 ∧ p.getLsbD (nelem p - 1) = true)) := by decide

theorem witness_StepRunsTheTakenInstruction :
    (let s := idleAt 0 0b01#2 2 0xF9#8 0 []
     s.ports.rst = false ∧ s.ctl = .idle ∧ decode .cmd2 [s.ports.cmd.setWidth 8] = .ok (.play, [])
     ∧ ∃ t, exec .play s = .next t)
    ∧ (let s := busyAt .charGap .msg 0xF0#8 0 100 800 800 [(0, 0x4F#8)]
       s.ports.rst = false ∧ s.ctl = .charGap ∧ s.deadline.toNat ≤ s.ports.now.toNat
       ∧ decode .char8 [memRead s.mem s.msgPtr.toNat] = .ok (.chO, []) ∧ ∃ t, exec .chO s = .next t) :=
  ⟨⟨rfl, rfl, rfl, _, rfl⟩, rfl, rfl, by decide, rfl, _, rfl⟩

/-- The reset state keeps R27, and a step from it answers a state. -/
theorem witness_ControlInvariantsAreKept : Controlled State.reset ∧ Answers State.reset :=
  ⟨⟨by decide, by decide, by decide, by decide, by decide, by decide⟩, _, rfl⟩

/-- A state in the middle of a DAH keeps R27 too. -/
theorem witness_ControlInvariantsAreKept_sending : Controlled (busyAt .sendDah .char 0xF9#8 0 2 20 15 []) :=
  ⟨by decide, by decide, by decide, by decide, by decide, by decide⟩

theorem witness_MemoryStaysCanonical :
    memWf (idleAt 0 0b10#2 1 0 0 [(0, 0x45#8), (0xFFFF, 0x54#8)]).mem = true
    ∧ Answers (idleAt 0 0b10#2 1 0 0 [(0, 0x45#8), (0xFFFF, 0x54#8)]) := ⟨by decide, _, rfl⟩

theorem witness_MemoryReadsWhatWasWritten : memWf [(0, 0x45#8), (0xFFFF, 0x54#8)] = true := by decide

/-- A clock cycle of the environment that writes a message byte. -/
def writing : EnvCycle := { ports := { Ports.low with now := 1 }, writes := [(0x0001#16, 0x54#8)] }

theorem witness_InstructionsNeverWriteMemory :
    (∃ t, exec .chA State.reset = .next t) ∧ Answers State.reset ∧ State.reset.script = []
    ∧ Answers (State.reset.setScript [writing]) ∧ (State.reset.setScript [writing]).script = writing :: [] :=
  ⟨⟨_, rfl⟩, ⟨_, rfl⟩, rfl, ⟨_, rfl⟩, rfl⟩

/-- Every clause: the idle commands, both outcomes of a SEND, a gap that ends, CHAR_GAP in its three cases, and
a character that begins with another `idx`. -/
theorem witness_ModeAndUnitAreLatchedPerCall :
    (∀ k ∈ [0b00#2, 0b11#2, 0b01#2, 0b10#2],
      let s := idleAt 10 k 2 0xF9#8 0 []
      s.ports.rst = false ∧ s.ctl = .idle ∧ s.ports.cmd = k ∧ memRead s.mem s.ports.msgBase.toNat = 0x00#8)
    ∧ (let s := idleAt 10 0b10#2 2 0 0 [(0, 0x41#8)]
       Answers s ∧ s.ports.rst = false ∧ memRead s.mem s.ports.msgBase.toNat ≠ 0x00#8
       ∧ ∃ t, step s = .next t ∧ t.idx ≠ s.idx)
    ∧ (let s := busyAt .sendInterElement .char 0xF9#8 1 2 14 14 []
       s.ports.rst = false ∧ s.ctl ≠ .idle ∧ s.ctl ≠ .charGap ∧ ∃ t, step s = .next t ∧ t.idx ≠ s.idx)
    ∧ (let s (now : Tick) (b : Memory) := busyAt .charGap .msg 0xF9#8 0 2 14 now b
       (Answers (s 13 []) ∧ (s 13 []).ctl = .charGap ∧ (s 13 []).ports.now.toNat < (s 13 []).deadline.toNat)
       ∧ (Answers (s 14 []) ∧ memRead (s 14 []).mem (s 14 []).msgPtr.toNat = 0x00#8)
       ∧ (Answers (s 14 [(0, 0x4F#8)]) ∧ (s 14 [(0, 0x4F#8)]).deadline.toNat ≤ (s 14 [(0, 0x4F#8)]).ports.now.toNat
         ∧ memRead (s 14 [(0, 0x4F#8)]).mem (s 14 [(0, 0x4F#8)]).msgPtr.toNat ≠ 0x00#8)) :=
  ⟨by decide, ⟨⟨_, rfl⟩, rfl, by decide, _, rfl, by decide⟩, ⟨rfl, by decide, by decide, _, rfl, by decide⟩,
    ⟨⟨_, rfl⟩, rfl, by decide⟩, ⟨⟨_, rfl⟩, by decide⟩, ⟨_, rfl⟩, by decide, by decide⟩

/-- Another memory with the same byte at MSG_ADDR, at an edge that takes a SEND. -/
theorem witness_MessageDataIsUsedAtFetchEdgesOnly :
    let s := idleAt 0 0b10#2 1 0 0 [(0, 0x45#8)]
    s.ports.rst = false ∧ s.ctl = .idle ∧ s.ports.cmd = 0b10#2
    ∧ memRead [(0, 0x45#8), (1, 0x54#8)] (msgAddr s).toNat = memRead s.mem (msgAddr s).toNat := by decide

/-- Three edges below the deadline, the second of them scripted, the third of a coasting environment. -/
theorem witness_WaitingStatesLastUntilTheDeadline :
    let s := (busyAt .sendDah .char 0xF9#8 0 2 3 0 []).setScript [writing]
    s.ctl.waiting = true
    ∧ ∀ k, k < 3 → (s.cycleAt k).ports.rst = false ∧ s.nowAt k < s.deadline.toNat := by decide

/-- Clock cycles with these values of `NOW`, no command and no reset. -/
def ticks (nows : List Tick) : List EnvCycle :=
  nows.map fun n => { ports := { Ports.low with now := n }, writes := [] }

/-- The first edge's `NOW` is 0, the next edges' are 0, 1, 1, 2 and 2: PLAY of `E` with unit 1 (V-D13 with two
edges a tick) ends at 2; PLAY of 0xFE ends at 0. -/
theorem witness_PlayedCharactersKeepTheirTimeline : ∀ p ∈ [0xFC#8, 0xFE#8],
    let s := (idleAt 0 0b01#2 1 p 0 []).setScript (ticks [0, 1, 1, 2, 2])
    s.ctl = .idle ∧ s.ports.cmd = 0b01#2 ∧ (nelem s.ports.patIn = 0 → s.tone = false) ∧ 1 ≤ s.ports.unitIn.toNat
    ∧ s.nowAt 0 + unitsOf (characterIntervals s.ports.patIn) * s.ports.unitIn.toNat < 2 ^ 32 ∧ Steady s 6
    ∧ s.nowAt 5 = s.nowAt 4 ∧ s.nowAt 4 = 2 := by unfold Steady; decide

/-- The space, silent for 4 units, and its end at the fifth edge of a coasting environment. -/
theorem witness_PlayedCharactersKeepTheirTimeline_space :
    let s := idleAt 0 0b01#2 1 0xEF#8 0 []
    s.tone = false ∧ Steady s 5 ∧ s.nowAt 4 = s.nowAt 0 + unitsOf (characterIntervals s.ports.patIn) * 1 := by
  unfold Steady; decide

/-- SEND of `E` at the top of memory, unit 1, the terminator at address 0: it ends 4 ticks after acceptance. -/
theorem witness_SentMessagesKeepTheirTimeline :
    let s := idleAt 0 0b10#2 1 0 0xFFFF#16 [(0xFFFF, 0x45#8)]
    s.ctl = .idle ∧ s.ports.cmd = 0b10#2 ∧ s.tone = false ∧ 1 ≤ s.ports.unitIn.toNat
    ∧ s.nowAt 0 + unitsOf (messageIntervals [0x45#8]) * s.ports.unitIn.toNat < 2 ^ 32 ∧ Steady s 5
    ∧ (∀ c ∈ [0x45#8], c ≠ 0x00#8)
    ∧ (∀ k, k < 5 → ∀ i, i ≤ 1 →
        memRead (s.cycleAt k).mem (s.ports.msgBase + BitVec.ofNat 16 i).toNat = [0x45#8].getD i 0x00#8)
    ∧ s.nowAt 4 = s.nowAt 0 + unitsOf (messageIntervals [0x45#8]) * s.ports.unitIn.toNat := by
  unfold Steady; decide

/-- V-D20: the intervals of `E E` by hand: on 1, off 1, gap 2, space 4, gap 2, on 1, off 1, gap 2. -/
theorem test_message_intervals : messageIntervals [0x45#8, 0x20#8, 0x45#8] =
    [⟨true, 1⟩, ⟨false, 1⟩, ⟨false, 2⟩, ⟨false, 4⟩, ⟨false, 2⟩, ⟨true, 1⟩, ⟨false, 1⟩, ⟨false, 2⟩] := by decide

/-- Two machines in a PLAY of `A`, one with another stale `msg_ptr`, which `MSG_ADDR` shows; both take a step. -/
theorem witness_LookingAlikeIsKeptByAStep :
    let s := busyAt .sendDit .char 0xF9#8 1 2 12 12 []
    LooksAlike s (s.setMsgPtr 7) ∧ Answers s ∧ Answers (s.setMsgPtr 7) :=
  ⟨⟨⟨rfl, rfl, rfl⟩, rfl, rfl, by decide, by decide, by decide, by decide⟩, ⟨_, rfl⟩, ⟨_, rfl⟩⟩

/-- Two idle machines, one with stale registers. -/
theorem witness_StaleRegistersAreInvisible :
    let s := { State.reset with pattern := 0xF9#8, idx := 1, unit := 2, deadline := 12, mode := .msg, msgPtr := 7 }
    s.ctl = .idle ∧ State.reset.ctl = .idle ∧ s.tone = false ∧ State.reset.tone = false ∧ SameEnvironment s State.reset :=
  ⟨rfl, rfl, rfl, rfl, rfl, rfl, rfl⟩

/-- V-D11: PLAY of `E` with unit 0, and the expiry of an element of unit 0; the second also changes the
deadline. -/
theorem witness_ZeroUnitDeadlinesAreNow :
    (let s := idleAt 0 0b01#2 0 0xFC#8 0 []
     s.ports.rst = false ∧ (s.ctl = .idle → s.ports.unitIn = 0) ∧ (s.ctl ≠ .idle → s.unit = 0)
     ∧ ∃ t, step s = .next t ∧ t.ctl ≠ s.ctl ∧ t.ctl ≠ .idle)
    ∧ (let s := busyAt .sendDit .char 0xFC#8 0 0 0 1 []
       s.ports.rst = false ∧ (s.ctl = .idle → s.ports.unitIn = 0) ∧ (s.ctl ≠ .idle → s.unit = 0)
       ∧ ∃ t, step s = .next t ∧ t.deadline ≠ s.deadline) :=
  ⟨⟨rfl, by decide, by decide, _, rfl, by decide, by decide⟩, rfl, by decide, by decide, _, rfl, by decide⟩

theorem witness_PlacedWordsAreTaken :
    memWf State.reset.mem = true ∧ decodeTableWord 8 0x4B = some .chK ∧ decodeTableWord 8 0xED = some (.pat4 0b1101#4)
    ∧ decodeTableWord 8 0x02 = some .send := by decide

end Sys2Proof.Tests
end

section
/-! SUPPORT. The characters of a message: what `exec` of a decoded byte does, said once for all bytes. -/

namespace Sys2Proof.Machine

/-- Each of the 41 rows of the decoder plays the code it stands for (R64). -/
theorem exec_charRow (s : State) : ∀ r ∈ charRows, exec r.2 s = .next (s.playCode r.1) := by
  simp only [charRows, letterRows, digitRows, punctuationRows, List.cons_append, List.nil_append,
    List.forall_mem_cons, List.not_mem_nil, false_implies, implies_true, and_true]
  and_intros <;> rfl

/-- The decoder and the Code Table have the same codes, in the same order. -/
theorem codeTable_keys : codeTable.map Prod.fst = charRows.map Prod.fst := rfl

/-- A code that no row of the decoder matches looks up the sentinel (R106). -/
theorem romRead_of_lookup_none {c : Byte} (h : charRows.lookup c = none) : romRead c = spacePattern := by
  have hrows : ∀ k ∈ charRows.map Prod.fst, c ≠ k := by
    simpa [List.lookup_eq_none_iff] using h
  have htable : codeTable.lookup c = none := by
    rw [← codeTable_keys] at hrows
    simpa [List.lookup_eq_none_iff] using hrows
  simp [romRead, htable]

/-- A decoded byte of a message ends the message or plays its code (R60, R133). -/
theorem exec_decodeChar (c : Byte) (s : State) :
    exec (decodeChar c) s = .next (if c = msgTerm then s.endMessage else s.playCode c) := by
  unfold decodeChar
  by_cases hterm : c = msgTerm
  · rw [if_pos hterm, if_pos hterm]; rfl
  rw [if_neg hterm, if_neg hterm]
  cases hrow : charRows.lookup c with
  | some i =>
    obtain ⟨before, after, hsplit, -⟩ := List.lookup_eq_some_iff.1 hrow
    exact exec_charRow s (c, i) (by simp [hsplit])
  | none =>
    have hplay : s.playCode c = s.playSymbol spacePattern s.msgPtr s.unit s.ports.now := by
      unfold State.playCode; rw [romRead_of_lookup_none hrow]
    rw [hplay]; rfl

/-- The instruction at `msg_ptr` does what `Fetch(msg_ptr, unit, NOW)` does (R133, R134). -/
theorem exec_decodeChar_at_msgPtr (s : State) :
    exec (decodeChar (memRead s.mem s.msgPtr.toNat)) s = .next (s.fetch s.msgPtr s.unit s.ports.now) :=
  exec_decodeChar _ s

end Sys2Proof.Machine
end

section
/-! SUPPORT. The procedures inside an edge, register by register: what each leaves unchanged, and how each
depends on its case. -/

namespace Sys2Proof.Machine

/-! ## The environment's move changes no register -/

@[simp] theorem nextCycle_ctl (s : State) : s.nextCycle.ctl = s.ctl := (nextCycle_registers s).ctl.symm
@[simp] theorem nextCycle_mode (s : State) : s.nextCycle.mode = s.mode := (nextCycle_registers s).mode.symm
@[simp] theorem nextCycle_pattern (s : State) : s.nextCycle.pattern = s.pattern := (nextCycle_registers s).pattern.symm
@[simp] theorem nextCycle_idx (s : State) : s.nextCycle.idx = s.idx := (nextCycle_registers s).idx.symm
@[simp] theorem nextCycle_unit (s : State) : s.nextCycle.unit = s.unit := (nextCycle_registers s).unit.symm
@[simp] theorem nextCycle_deadline (s : State) : s.nextCycle.deadline = s.deadline := (nextCycle_registers s).deadline.symm
@[simp] theorem nextCycle_msgPtr (s : State) : s.nextCycle.msgPtr = s.msgPtr := (nextCycle_registers s).msgPtr.symm
@[simp] theorem nextCycle_tone (s : State) : s.nextCycle.tone = s.tone := (nextCycle_registers s).tone.symm

/-- What the environment makes of its side does not depend on the registers (log 1). -/
theorem SameEnvironment.nextCycle {s s' : State} (h : SameEnvironment s s') :
    SameEnvironment s.nextCycle s'.nextCycle := by
  obtain ⟨hports, hscript, hmem⟩ := h
  unfold State.nextCycle
  rw [← hscript]
  cases hs : s.script with
  | nil => exact ⟨congrArg Ports.coast hports, hscript, hmem⟩
  | cons c cs => exact ⟨rfl, rfl, congrArg (memWriteAll · c.writes) hmem⟩

/-! ## `FinishChar` and `StartElem` write neither the call's registers nor the character's -/

section
variable (s : State) (p : Byte) (m : Mode) (i : Nat) (u : Duration) (now : Tick)

@[simp] theorem finishChar_mode : (s.finishChar m u now).mode = s.mode := by cases m <;> rfl
@[simp] theorem finishChar_unit : (s.finishChar m u now).unit = s.unit := by cases m <;> rfl
@[simp] theorem finishChar_msgPtr : (s.finishChar m u now).msgPtr = s.msgPtr := by cases m <;> rfl
@[simp] theorem finishChar_pattern : (s.finishChar m u now).pattern = s.pattern := by cases m <;> rfl
@[simp] theorem finishChar_idx : (s.finishChar m u now).idx = s.idx := by cases m <;> rfl

/-- Everything `StartElem` can do. -/
theorem startElem_inversion :
    (p.getLsbD i = false ∧
      s.startElem p i u now = { s with tone := true, deadline := dl now 1 u, ctl := .sendDit })
    ∨ (p.getLsbD i = true ∧
      s.startElem p i u now = { s with tone := true, deadline := dl now 3 u, ctl := .sendDah }) := by
  cases hb : p.getLsbD i with
  | false => exact .inl ⟨rfl, startElem_of_dit s u now ((elem_dit_iff p i).2 hb)⟩
  | true => exact .inr ⟨rfl, startElem_of_dah s u now ((elem_dah_iff p i).2 hb)⟩

@[simp] theorem startElem_mode : (s.startElem p i u now).mode = s.mode := by
  unfold State.startElem; split <;> rfl
@[simp] theorem startElem_unit : (s.startElem p i u now).unit = s.unit := by
  unfold State.startElem; split <;> rfl
@[simp] theorem startElem_msgPtr : (s.startElem p i u now).msgPtr = s.msgPtr := by
  unfold State.startElem; split <;> rfl
@[simp] theorem startElem_pattern : (s.startElem p i u now).pattern = s.pattern := by
  unfold State.startElem; split <;> rfl
@[simp] theorem startElem_idx : (s.startElem p i u now).idx = s.idx := by
  unfold State.startElem; split <;> rfl

/-! ## `BeginChar` writes `pattern`, and `idx` only to the first element -/

@[simp] theorem beginChar_mode : (s.beginChar p m u now).mode = s.mode := by
  unfold State.beginChar; split_ifs <;> simp
@[simp] theorem beginChar_unit : (s.beginChar p m u now).unit = s.unit := by
  unfold State.beginChar; split_ifs <;> simp
@[simp] theorem beginChar_msgPtr : (s.beginChar p m u now).msgPtr = s.msgPtr := by
  unfold State.beginChar; split_ifs <;> simp
@[simp] theorem beginChar_pattern : (s.beginChar p m u now).pattern = p := by
  unfold State.beginChar; split_ifs <;> simp

/-- `idx` names the first element of `pattern` (R121). -/
def AtFirstElement (s : State) : Prop := 1 ≤ nelem s.pattern ∧ s.idx = BitVec.ofNat 3 (nelem s.pattern - 1)

/-- Only the element branch of `BeginChar` writes `idx`. -/
theorem beginChar_idx : (s.beginChar p m u now).idx = s.idx ∨ AtFirstElement (s.beginChar p m u now) := by
  by_cases hspace : p = 0xEF#8
  · rw [beginChar_space s m u now hspace]; exact .inl rfl
  by_cases hempty : nelem p = 0
  · rw [beginChar_empty s m u now hspace hempty]; exact .inl (by simp)
  · have hpos : 1 ≤ nelem p := Nat.pos_of_ne_zero hempty
    rw [beginChar_element s m u now hspace hpos]
    exact .inr (by simpa [AtFirstElement] using hpos)

/-! ## `Fetch` ends the message or begins the character it finds -/

variable {a : Addr}

theorem fetch_of_term (h : memRead s.mem a.toNat = 0x00#8) : s.fetch a u now = { s with ctl := .idle } := if_pos h

theorem fetch_of_char (h : memRead s.mem a.toNat ≠ 0x00#8) :
    s.fetch a u now = State.beginChar { s with msgPtr := a + 1 } (romRead (memRead s.mem a.toNat)) .msg u now :=
  if_neg h

@[simp] theorem fetch_mode : (s.fetch a u now).mode = s.mode := by
  by_cases h : memRead s.mem a.toNat = 0x00#8
  · rw [fetch_of_term s u now h]
  · rw [fetch_of_char s u now h, beginChar_mode]

@[simp] theorem fetch_unit : (s.fetch a u now).unit = s.unit := by
  by_cases h : memRead s.mem a.toNat = 0x00#8
  · rw [fetch_of_term s u now h]
  · rw [fetch_of_char s u now h, beginChar_unit]

theorem fetch_idx : (s.fetch a u now).idx = s.idx ∨ AtFirstElement (s.fetch a u now) := by
  by_cases h : memRead s.mem a.toNat = 0x00#8
  · rw [fetch_of_term s u now h]; exact .inl rfl
  · rw [fetch_of_char s u now h]; exact beginChar_idx _ _ _ _ _

end

/-! ## The expiry of SEND_INTER_ELEMENT -/

theorem gapExpiry_of_last {s : State} (h : s.idx = 0) : s.gapExpiry = s.finishChar s.mode s.unit s.ports.now :=
  if_pos h

theorem gapExpiry_of_more {s : State} (h : s.idx ≠ 0) :
    s.gapExpiry = State.startElem { s with idx := s.idx - 1 } s.pattern (s.idx.toNat - 1) s.unit s.ports.now :=
  if_neg h

end Sys2Proof.Machine
end

section
/-! SUPPORT. One edge as a relation: the nine things an edge can do, each with its condition. -/

namespace Sys2Proof.Machine

/-- `EdgeCase s r`: the edge from `s` leaves the registers of `r`; one constructor per rule that an edge can
follow (44_commands_and_step.md R140, R141; 42_element_player.md R123, R124, R126; 43_message_sender.md R134). -/
inductive EdgeCase (s : State) : State → Prop where
  /-- reset wins -/
  | reset (hrst : s.ports.rst = true) : EdgeCase s s.resetRegisters
  /-- idle, with NOP or RESERVED -/
  | noCommand (hrst : s.ports.rst = false) (hctl : s.ctl = .idle)
      (hcmd : s.ports.cmd = 0b00#2 ∨ s.ports.cmd = 0b11#2) : EdgeCase s s
  /-- idle, PLAY is accepted -/
  | play (hrst : s.ports.rst = false) (hctl : s.ctl = .idle) (hcmd : s.ports.cmd = 0b01#2) :
      EdgeCase s (s.latchPlay.beginChar s.ports.patIn .char s.ports.unitIn s.ports.now)
  /-- idle, SEND is accepted -/
  | send (hrst : s.ports.rst = false) (hctl : s.ctl = .idle) (hcmd : s.ports.cmd = 0b10#2) :
      EdgeCase s (s.latchSend.fetch s.ports.msgBase s.ports.unitIn s.ports.now)
  /-- a waiting state before its deadline -/
  | wait (hrst : s.ports.rst = false) (hctl : s.ctl ≠ .idle) (hnow : s.ports.now.toNat < s.deadline.toNat) :
      EdgeCase s s
  /-- the tone of an element ends -/
  | elementEnd (hrst : s.ports.rst = false) (hctl : s.ctl = .sendDit ∨ s.ctl = .sendDah)
      (hnow : s.deadline.toNat ≤ s.ports.now.toNat) : EdgeCase s s.elementExpiry
  /-- the silence after an element ends -/
  | interElementEnd (hrst : s.ports.rst = false) (hctl : s.ctl = .sendInterElement)
      (hnow : s.deadline.toNat ≤ s.ports.now.toNat) : EdgeCase s s.gapExpiry
  /-- a space ends -/
  | spaceEnd (hrst : s.ports.rst = false) (hctl : s.ctl = .spaceWait)
      (hnow : s.deadline.toNat ≤ s.ports.now.toNat) : EdgeCase s s.spaceExpiry
  /-- the sender's delay ends and the next byte is fetched -/
  | charGapEnd (hrst : s.ports.rst = false) (hctl : s.ctl = .charGap)
      (hnow : s.deadline.toNat ≤ s.ports.now.toNat) : EdgeCase s (s.fetch s.msgPtr s.unit s.ports.now)

/-- Each case is what `step` does, followed by the environment's move. -/
theorem EdgeCase.step_eq {s r : State} (h : EdgeCase s r) : step s = .next r.nextCycle := by
  cases h with
  | reset hrst => exact step_reset hrst
  | noCommand hrst hctl hcmd => rcases hcmd with hcmd | hcmd <;> rw [step_idle hrst hctl, hcmd] <;> rfl
  | play hrst hctl hcmd =>
    have hexec : exec .play s = .next (s.latchPlay.beginChar s.ports.patIn .char s.ports.unitIn s.ports.now) :=
      congrArg Host.Outcome.next (if_pos hctl)
    rw [step_idle hrst hctl, hcmd, show decodeCmd 0b01#2 = .play from rfl, hexec]; rfl
  | send hrst hctl hcmd =>
    have hexec : exec .send s = .next (s.latchSend.fetch s.ports.msgBase s.ports.unitIn s.ports.now) :=
      congrArg Host.Outcome.next (if_pos hctl)
    rw [step_idle hrst hctl, hcmd, show decodeCmd 0b10#2 = .send from rfl, hexec]; rfl
  | wait hrst hctl hnow => exact step_waiting hrst hctl hnow
  | elementEnd hrst hctl hnow => exact step_element_expiry hrst hctl hnow
  | interElementEnd hrst hctl hnow => exact step_gap_expiry hrst hctl hnow
  | spaceEnd hrst hctl hnow => exact step_space_expiry hrst hctl hnow
  | charGapEnd hrst hctl hnow =>
    rw [step_char_gap_expiry hrst hctl hnow, exec_decodeChar_at_msgPtr]; rfl

/-- The four values on `CMD` (R57). -/
theorem command_cases : ∀ c : BitVec 2, (c = 0b00#2 ∨ c = 0b11#2) ∨ c = 0b01#2 ∨ c = 0b10#2 := by decide

/-- Every edge follows one of the cases. -/
theorem edgeCase_exists (s : State) : ∃ r, EdgeCase s r := by
  cases hrst : s.ports.rst with
  | true => exact ⟨_, .reset hrst⟩
  | false =>
    by_cases hidle : s.ctl = .idle
    · rcases command_cases s.ports.cmd with hcmd | hcmd | hcmd
      · exact ⟨_, .noCommand hrst hidle hcmd⟩
      · exact ⟨_, .play hrst hidle hcmd⟩
      · exact ⟨_, .send hrst hidle hcmd⟩
    rcases Nat.lt_or_ge s.ports.now.toNat s.deadline.toNat with hnow | hnow
    · exact ⟨_, .wait hrst hidle hnow⟩
    cases hctl : s.ctl with
    | idle => exact absurd hctl hidle
    | sendDit => exact ⟨_, .elementEnd hrst (.inl hctl) hnow⟩
    | sendDah => exact ⟨_, .elementEnd hrst (.inr hctl) hnow⟩
    | sendInterElement => exact ⟨_, .interElementEnd hrst hctl hnow⟩
    | spaceWait => exact ⟨_, .spaceEnd hrst hctl hnow⟩
    | charGap => exact ⟨_, .charGapEnd hrst hctl hnow⟩

/-- A case fixes the state that `step` answers. -/
theorem EdgeCase.next_eq {s r t : State} (h : EdgeCase s r) (hstep : step s = .next t) : t = r.nextCycle :=
  Host.Outcome.next.inj (hstep.symm.trans h.step_eq)

/-- Inversion of a step: one of the cases, then the environment's move. -/
theorem step_inversion {s t : State} (h : step s = .next t) : ∃ r, EdgeCase s r ∧ t = r.nextCycle := by
  obtain ⟨r, hr⟩ := edgeCase_exists s
  exact ⟨r, hr, hr.next_eq h⟩

end Sys2Proof.Machine
end

section
/-! SUPPORT. Every case of an edge keeps the invariants of R27. -/

namespace Sys2Proof.Machine

variable {s t r : State} {p : Byte} {m : Mode} {i : Nat} {a : Addr} {u : Duration} {now : Tick}

/-- The invariants speak of registers only. -/
theorem Controlled.of_sameRegisters (hs : Controlled s) (h : SameRegisters s t) : Controlled t where
  tone_iff := h.ctl ▸ h.tone ▸ hs.tone_iff
  dit_bit := h.ctl ▸ h.pattern ▸ h.idx ▸ hs.dit_bit
  dah_bit := h.ctl ▸ h.pattern ▸ h.idx ▸ hs.dah_bit
  sending_pattern := h.ctl ▸ h.pattern ▸ h.idx ▸ hs.sending_pattern
  space_pattern := h.ctl ▸ h.pattern ▸ hs.space_pattern
  gap_mode := h.ctl ▸ h.mode ▸ hs.gap_mode

/-- Outside SEND_DIT and SEND_DAH the tone is off. -/
theorem Controlled.silent (hs : Controlled s) (hdit : s.ctl ≠ .sendDit) (hdah : s.ctl ≠ .sendDah) : s.tone = false := by
  rw [← Bool.not_eq_true, hs.tone_iff]
  exact not_or.2 ⟨hdit, hdah⟩

/-- An idle, silent state meets the invariants, whatever its other registers hold. -/
theorem controlled_of_idle (hctl : s.ctl = .idle) (htone : s.tone = false) : Controlled s := by
  constructor <;> simp [hctl, htone, Ctl.sending]

theorem controlled_finishChar (htone : s.tone = false) (hmode : s.mode = m) : Controlled (s.finishChar m u now) := by
  cases m with
  | char => exact controlled_of_idle rfl htone
  | msg => constructor <;> simp [htone, hmode, Ctl.sending]

/-- `StartElem` on the element that `idx` names establishes the invariants from nothing else. -/
theorem controlled_startElem (hpat : s.pattern = p) (hidx : s.idx.toNat = i) (hspace : p ≠ 0xEF#8) (hi : i < nelem p) :
    Controlled (s.startElem p i u now) := by
  have hpos : 1 ≤ nelem p := Nat.one_le_of_lt hi
  rcases startElem_inversion s p i u now with ⟨hbit, heq⟩ | ⟨hbit, heq⟩ <;> rw [heq] <;>
    constructor <;> simp [hpat, hidx, hbit, hspace, hpos, hi]

/-- The index of the first element fits `idx`. -/
theorem toNat_firstElement (p : Byte) : (BitVec.ofNat 3 (nelem p - 1)).toNat = nelem p - 1 := by
  have := nelem_le p
  rw [BitVec.toNat_ofNat]; omega

theorem controlled_beginChar (htone : s.tone = false) (hmode : s.mode = m) : Controlled (s.beginChar p m u now) := by
  by_cases hspace : p = 0xEF#8
  · rw [beginChar_space s m u now hspace]
    constructor <;> simp [htone, hspace, Ctl.sending]
  by_cases hempty : nelem p = 0
  · rw [beginChar_empty s m u now hspace hempty]
    exact controlled_finishChar htone hmode
  · have hpos : 1 ≤ nelem p := Nat.pos_of_ne_zero hempty
    rw [beginChar_element s m u now hspace hpos]
    exact controlled_startElem rfl (toNat_firstElement p) hspace (Nat.sub_lt hpos Nat.one_pos)

theorem controlled_fetch (htone : s.tone = false) (hmode : s.mode = .msg) : Controlled (s.fetch a u now) := by
  by_cases h : memRead s.mem a.toNat = 0x00#8
  · rw [fetch_of_term s u now h]; exact controlled_of_idle rfl htone
  · rw [fetch_of_char s u now h]; exact controlled_beginChar htone hmode

/-- The end of an element leaves its pattern and index for the silence after it. -/
theorem Controlled.elementExpiry (hs : Controlled s) (hctl : s.ctl = .sendDit ∨ s.ctl = .sendDah) :
    Controlled s.elementExpiry := by
  have hsending : s.ctl.sending = true := by rcases hctl with h | h <;> rw [h] <;> rfl
  constructor <;> simp [State.elementExpiry, State.keyOff]
  case sending_pattern => exact fun _ => hs.sending_pattern hsending

/-- The end of the silence moves to the next lower element, which the pattern still has. -/
theorem Controlled.gapExpiry (hs : Controlled s) (hctl : s.ctl = .sendInterElement) : Controlled s.gapExpiry := by
  have htone : s.tone = false := hs.silent (by simp [hctl]) (by simp [hctl])
  obtain ⟨hpat, -, hlt⟩ := hs.sending_pattern (by rw [hctl]; rfl)
  by_cases hlast : s.idx = 0
  · rw [gapExpiry_of_last hlast]; exact controlled_finishChar htone rfl
  · have hidx : (s.idx - 1).toNat = s.idx.toNat - 1 := by
      have : s.idx.toNat ≠ 0 := fun h0 => hlast (BitVec.eq_of_toNat_eq h0)
      bv_omega
    rw [gapExpiry_of_more hlast]
    exact controlled_startElem rfl hidx hpat (Nat.lt_of_le_of_lt (Nat.sub_le _ _) hlt)

/-- Every case of an edge keeps the invariants. -/
theorem Controlled.edge (hs : Controlled s) (he : EdgeCase s r) : Controlled r := by
  cases he with
  | reset _ => exact controlled_of_idle rfl rfl
  | noCommand _ _ _ => exact hs
  | play _ hctl _ =>
    exact controlled_beginChar (hs.silent (by simp [hctl]) (by simp [hctl])) rfl
  | send _ hctl _ =>
    exact controlled_fetch (hs.silent (by simp [hctl]) (by simp [hctl])) rfl
  | wait _ _ _ => exact hs
  | elementEnd _ hctl _ => exact hs.elementExpiry hctl
  | interElementEnd _ hctl _ => exact hs.gapExpiry hctl
  | spaceEnd _ hctl _ =>
    exact controlled_finishChar (hs.silent (by simp [hctl]) (by simp [hctl])) rfl
  | charGapEnd _ hctl _ =>
    exact controlled_fetch (hs.silent (by simp [hctl]) (by simp [hctl])) (hs.gap_mode hctl)

end Sys2Proof.Machine
end

section
/-! SUPPORT. Two states that agree on what the call in progress reads go on agreeing, so what earlier calls
left behind never shows (R28). -/

namespace Sys2Proof.Machine

variable {s s' r t t' : State} {p : Byte} {m : Mode} {i : Nat} {a : Addr} {u : Duration} {now : Tick}

/-- Two states in the same call: what `LooksAlike` asks of the environment, of the tone and of the registers
that a call latches, whatever `ctl` is. -/
structure SameCall (s s' : State) : Prop where
  environment : SameEnvironment s s'
  tone : s.tone = s'.tone
  mode : s.mode = s'.mode
  unit : s.unit = s'.unit
  sender : s.mode = .msg → s.msgPtr = s'.msgPtr

theorem LooksAlike.sameCall (h : LooksAlike s s') (hctl : s.ctl ≠ .idle) : SameCall s s' := by
  obtain ⟨hmode, hunit, -⟩ := h.call hctl
  exact ⟨h.environment, h.tone, hmode, hunit, h.sender hctl⟩

/-- In the same call, what is left of looking alike is what the value of `ctl` asks. -/
theorem SameCall.looksAlike (h : SameCall s s') (hctl : s.ctl = s'.ctl) (hdeadline : s.deadline = s'.deadline)
    (helement : s.ctl.sending = true → s.pattern = s'.pattern ∧ s.idx = s'.idx)
    (hgap : s.ctl = .charGap → s.mode = .msg) : LooksAlike s s' where
  environment := h.environment
  ctl := hctl
  tone := h.tone
  call _ := ⟨h.mode, h.unit, hdeadline⟩
  sender _ := h.sender
  element := helement
  gap_mode := hgap

/-- Idle states look alike whatever earlier calls left in the other registers. -/
theorem looksAlike_of_idle (henv : SameEnvironment s s') (htone : s.tone = s'.tone) (hctl : s.ctl = .idle)
    (hctl' : s'.ctl = .idle) : LooksAlike s s' := by
  constructor <;> simp [henv, htone, hctl, hctl', Ctl.sending]

/-! ## The procedures -/

theorem SameCall.finishChar (h : SameCall s s') (hm : s.mode = m) :
    LooksAlike (s.finishChar m u now) (s'.finishChar m u now) := by
  obtain ⟨⟨hports, hscript, hmem⟩, htone, hmode, hunit, hsender⟩ := h
  cases m with
  | char => exact looksAlike_of_idle ⟨hports, hscript, hmem⟩ htone rfl rfl
  | msg =>
    exact SameCall.looksAlike ⟨⟨hports, hscript, hmem⟩, htone, hmode, hunit, hsender⟩ rfl rfl nofun fun _ => hm

/-- The same element starts alike, whatever the tone was. -/
theorem SameCall.startElem (h : SameCall s s') (hpat : s.pattern = s'.pattern) (hidx : s.idx = s'.idx) :
    LooksAlike (s.startElem p i u now) (s'.startElem p i u now) := by
  obtain ⟨⟨hports, hscript, hmem⟩, -, hmode, hunit, hsender⟩ := h
  cases he : elem p i with
  | dit =>
    rw [startElem_of_dit s u now he, startElem_of_dit s' u now he]
    exact SameCall.looksAlike ⟨⟨hports, hscript, hmem⟩, rfl, hmode, hunit, hsender⟩ rfl rfl
      (fun _ => ⟨hpat, hidx⟩) nofun
  | dah =>
    rw [startElem_of_dah s u now he, startElem_of_dah s' u now he]
    exact SameCall.looksAlike ⟨⟨hports, hscript, hmem⟩, rfl, hmode, hunit, hsender⟩ rfl rfl
      (fun _ => ⟨hpat, hidx⟩) nofun

/-- A character begins alike whatever `pattern`, `idx` and `deadline` held. -/
theorem SameCall.beginChar (h : SameCall s s') (hm : s.mode = m) :
    LooksAlike (s.beginChar p m u now) (s'.beginChar p m u now) := by
  obtain ⟨⟨hports, hscript, hmem⟩, htone, hmode, hunit, hsender⟩ := h
  by_cases hspace : p = 0xEF#8
  · rw [beginChar_space s m u now hspace, beginChar_space s' m u now hspace]
    exact SameCall.looksAlike ⟨⟨hports, hscript, hmem⟩, htone, hmode, hunit, hsender⟩ rfl rfl nofun nofun
  by_cases hempty : nelem p = 0
  · rw [beginChar_empty s m u now hspace hempty, beginChar_empty s' m u now hspace hempty]
    exact SameCall.finishChar ⟨⟨hports, hscript, hmem⟩, htone, hmode, hunit, hsender⟩ hm
  · have hpos : 1 ≤ nelem p := Nat.pos_of_ne_zero hempty
    rw [beginChar_element s m u now hspace hpos, beginChar_element s' m u now hspace hpos]
    exact SameCall.startElem ⟨⟨hports, hscript, hmem⟩, htone, hmode, hunit, hsender⟩ rfl rfl

/-- A fetch at the same address finds the same byte and goes on alike. -/
theorem SameCall.fetch (h : SameCall s s') (hm : s.mode = .msg) :
    LooksAlike (s.fetch a u now) (s'.fetch a u now) := by
  obtain ⟨⟨hports, hscript, hmem⟩, htone, hmode, hunit, -⟩ := h
  by_cases hterm : memRead s.mem a.toNat = 0x00#8
  · rw [fetch_of_term s u now hterm, fetch_of_term s' u now (hmem ▸ hterm)]
    exact looksAlike_of_idle ⟨hports, hscript, hmem⟩ htone rfl rfl
  · rw [fetch_of_char s u now hterm, fetch_of_char s' u now (hmem ▸ hterm), ← hmem]
    exact SameCall.beginChar ⟨⟨hports, hscript, rfl⟩, htone, hmode, hunit, fun _ => rfl⟩ hm

/-! ## The edge -/

theorem LooksAlike.elementExpiry (h : LooksAlike s s') (hctl : s.ctl = .sendDit ∨ s.ctl = .sendDah) :
    LooksAlike s.elementExpiry s'.elementExpiry := by
  obtain ⟨hbusy, hsending⟩ : s.ctl ≠ .idle ∧ s.ctl.sending = true := by
    rcases hctl with hc | hc <;> rw [hc] <;> exact ⟨nofun, rfl⟩
  obtain ⟨⟨hports, hscript, hmem⟩, -, hmode, hunit, hsender⟩ := h.sameCall hbusy
  refine SameCall.looksAlike ⟨⟨hports, hscript, hmem⟩, rfl, hmode, hunit, hsender⟩ rfl ?_
    (fun _ => h.element hsending) nofun
  change dl s.ports.now 1 s.unit = dl s'.ports.now 1 s'.unit
  rw [hports, hunit]

theorem LooksAlike.gapExpiry (h : LooksAlike s s') (hctl : s.ctl = .sendInterElement) :
    LooksAlike s.gapExpiry s'.gapExpiry := by
  have hcall : SameCall s s' := h.sameCall (by simp [hctl])
  obtain ⟨hpat, hidx⟩ := h.element (by rw [hctl]; rfl)
  by_cases hlast : s.idx = 0
  · rw [gapExpiry_of_last hlast, gapExpiry_of_last (hidx ▸ hlast), ← hcall.mode, ← hcall.unit, ← hcall.environment.ports]
    exact hcall.finishChar rfl
  · rw [gapExpiry_of_more hlast, gapExpiry_of_more (hidx ▸ hlast), ← hpat, ← hidx, ← hcall.unit, ← hcall.environment.ports]
    obtain ⟨⟨-, hscript, hmem⟩, htone, hmode, -, hsender⟩ := hcall
    exact SameCall.startElem ⟨⟨rfl, hscript, hmem⟩, htone, hmode, rfl, hsender⟩ rfl rfl

/-- The commuting square of an edge: the second state follows the same case, to a state that looks alike. -/
theorem LooksAlike.edge (h : LooksAlike s s') (he : EdgeCase s r) : ∃ r', EdgeCase s' r' ∧ LooksAlike r r' := by
  obtain ⟨hports, hscript, hmem⟩ := h.environment
  cases he with
  | reset hrst =>
    exact ⟨_, .reset (hports ▸ hrst), looksAlike_of_idle ⟨hports, hscript, hmem⟩ rfl rfl rfl⟩
  | noCommand hrst hctl hcmd => exact ⟨_, .noCommand (hports ▸ hrst) (h.ctl ▸ hctl) (hports ▸ hcmd), h⟩
  | play hrst hctl hcmd =>
    refine ⟨_, .play (hports ▸ hrst) (h.ctl ▸ hctl) (hports ▸ hcmd), ?_⟩
    rw [← hports]
    exact SameCall.beginChar ⟨⟨hports, hscript, hmem⟩, h.tone, rfl, congrArg Ports.unitIn hports, nofun⟩ rfl
  | send hrst hctl hcmd =>
    refine ⟨_, .send (hports ▸ hrst) (h.ctl ▸ hctl) (hports ▸ hcmd), ?_⟩
    rw [← hports]
    exact SameCall.fetch ⟨⟨hports, hscript, hmem⟩, h.tone, rfl, congrArg Ports.unitIn hports,
      fun _ => congrArg Ports.msgBase hports⟩ rfl
  | wait hrst hctl hnow =>
    obtain ⟨-, -, hdeadline⟩ := h.call hctl
    exact ⟨_, .wait (hports ▸ hrst) (h.ctl ▸ hctl) (hports ▸ hdeadline ▸ hnow), h⟩
  | elementEnd hrst hctl hnow =>
    obtain ⟨-, -, hdeadline⟩ := h.call (by rcases hctl with hc | hc <;> simp [hc])
    exact ⟨_, .elementEnd (hports ▸ hrst) (h.ctl ▸ hctl) (hports ▸ hdeadline ▸ hnow), h.elementExpiry hctl⟩
  | interElementEnd hrst hctl hnow =>
    obtain ⟨-, -, hdeadline⟩ := h.call (by simp [hctl])
    exact ⟨_, .interElementEnd (hports ▸ hrst) (h.ctl ▸ hctl) (hports ▸ hdeadline ▸ hnow), h.gapExpiry hctl⟩
  | spaceEnd hrst hctl hnow =>
    have hbusy : s.ctl ≠ .idle := by simp [hctl]
    obtain ⟨hmode, hunit, hdeadline⟩ := h.call hbusy
    refine ⟨_, .spaceEnd (hports ▸ hrst) (h.ctl ▸ hctl) (hports ▸ hdeadline ▸ hnow), ?_⟩
    unfold State.spaceExpiry
    rw [← hports, ← hmode, ← hunit]
    exact (h.sameCall hbusy).finishChar rfl
  | charGapEnd hrst hctl hnow =>
    have hbusy : s.ctl ≠ .idle := by simp [hctl]
    have hmsg : s.mode = .msg := h.gap_mode hctl
    obtain ⟨-, hunit, hdeadline⟩ := h.call hbusy
    refine ⟨_, .charGapEnd (hports ▸ hrst) (h.ctl ▸ hctl) (hports ▸ hdeadline ▸ hnow), ?_⟩
    rw [← hports, ← hunit, ← h.sender hbusy hmsg]
    exact (h.sameCall hbusy).fetch hmsg

/-- The environment moves alike and leaves the registers. -/
theorem LooksAlike.nextCycle (h : LooksAlike s s') : LooksAlike s.nextCycle s'.nextCycle := by
  obtain ⟨henv, hctl, htone, hcall, hsender, helement, hgap⟩ := h
  constructor
  case environment => exact henv.nextCycle
  all_goals simpa

/-- The commuting square of a step. -/
theorem LooksAlike.step_commutes (h : LooksAlike s s') (hstep : step s = .next t) :
    ∃ t', step s' = .next t' ∧ LooksAlike t t' := by
  obtain ⟨r, he, rfl⟩ := step_inversion hstep
  obtain ⟨r', he', hr⟩ := h.edge he
  exact ⟨_, he'.step_eq, hr.nextCycle⟩

/-- States that look alike look alike after any number of edges. -/
theorem LooksAlike.run (n : Nat) : ∀ {s s' : State}, LooksAlike s s' →
    ∃ t t', Sys2Proof.core.run n s = .next t ∧ Sys2Proof.core.run n s' = .next t' ∧ LooksAlike t t' := by
  induction n with
  | zero => exact fun h => ⟨_, _, rfl, rfl, h⟩
  | succ n ih =>
    intro s s' h
    obtain ⟨r, he⟩ := edgeCase_exists s
    obtain ⟨s₁', hstep', hlook⟩ := h.step_commutes he.step_eq
    rw [run_succ_of_next he.step_eq, run_succ_of_next hstep']
    exact ih hlook

end Sys2Proof.Machine
end

section
/-! SUPPORT. Which registers an edge writes, and when. -/

namespace Sys2Proof.Machine

variable {s r t : State}

/-- No edge of a call in progress writes `mode` or `unit` (R15, R18, R145). -/
theorem EdgeCase.mode_unit_of_busy (he : EdgeCase s r) (hrst : s.ports.rst = false) (hctl : s.ctl ≠ .idle) :
    r.mode = s.mode ∧ r.unit = s.unit := by
  cases he with
  | reset h => simp [hrst] at h
  | noCommand _ h _ | play _ h _ | send _ h _ => exact absurd h hctl
  | wait _ _ _ | elementEnd _ _ _ => exact ⟨rfl, rfl⟩
  | interElementEnd _ _ _ =>
    by_cases hlast : s.idx = 0
    · rw [gapExpiry_of_last hlast]; simp
    · rw [gapExpiry_of_more hlast]; simp
  | spaceEnd _ _ _ => simp [State.spaceExpiry]
  | charGapEnd _ _ _ => simp

/-- Between a character's beginning and its end only `idx` moves, down by one where the next element starts
(R16, R17, R20). -/
theorem EdgeCase.character_kept (he : EdgeCase s r) (hrst : s.ports.rst = false) (hctl : s.ctl ≠ .idle)
    (hgap : s.ctl ≠ .charGap) : r.msgPtr = s.msgPtr ∧ r.pattern = s.pattern
      ∧ (r.idx ≠ s.idx → s.ctl = .sendInterElement ∧ s.deadline.toNat ≤ s.ports.now.toNat ∧ r.idx = s.idx - 1) := by
  cases he with
  | reset h => simp [hrst] at h
  | noCommand _ h _ | play _ h _ | send _ h _ => exact absurd h hctl
  | wait _ _ _ | elementEnd _ _ _ => exact ⟨rfl, rfl, fun hidx => absurd rfl hidx⟩
  | interElementEnd _ hc hnow =>
    by_cases hlast : s.idx = 0
    · rw [gapExpiry_of_last hlast]; simp
    · rw [gapExpiry_of_more hlast]; simp [hc, hnow]
  | spaceEnd _ _ _ => simp [State.spaceExpiry]
  | charGapEnd _ h _ => exact absurd h hgap

/-- Where a character can begin, `idx` changes only to its first element (R17, R121). -/
theorem EdgeCase.idx_at_begin (he : EdgeCase s r) (hrst : s.ports.rst = false) (hctl : s.ctl = .idle ∨ s.ctl = .charGap) :
    r.idx = s.idx ∨ AtFirstElement r := by
  cases he with
  | reset h => simp [hrst] at h
  | noCommand _ _ _ | wait _ _ _ => exact .inl rfl
  | play _ _ _ => exact beginChar_idx s.latchPlay _ _ _ _
  | send _ _ _ => exact fetch_idx s.latchSend _ _
  | elementEnd _ h _ => rcases hctl with hc | hc <;> simp [hc] at h
  | interElementEnd _ h _ | spaceEnd _ h _ => rcases hctl with hc | hc <;> simp [hc] at h
  | charGapEnd _ _ _ => exact fetch_idx s _ _

end Sys2Proof.Machine
end

section
/-! The obligations of 10_state.md. -/

namespace Sys2Proof.Machine

/-- Settles O35: the fields of `State.reset`. -/
theorem resetLeavesTheListedValues : Obligations.ResetLeavesTheListedValues := by
  unfold Obligations.ResetLeavesTheListedValues
  and_intros <;> rfl

/-- Settles O37: the definitions of the output ports, on both sides of IDLE. -/
theorem outputsFollowTheRegisters : Obligations.OutputsFollowTheRegisters := by
  intro s
  exact ⟨rfl, bne_iff_ne, fun h => if_pos h, fun h => if_neg h, rfl⟩

/-- Settles O42: the reset state is idle and silent. -/
theorem controlInvariantsHoldAtReset : Obligations.ControlInvariantsHoldAtReset := by
  refine ⟨controlled_of_idle rfl rfl, fun c => ?_⟩
  cases c <;> decide

/-- Settles O41: one case of the edge at a time, then the environment's move, which writes no register. -/
theorem controlInvariantsAreKept : Obligations.ControlInvariantsAreKept := by
  intro s t hs hstep
  obtain ⟨r, he, rfl⟩ := step_inversion hstep
  exact (hs.edge he).of_sameRegisters (nextCycle_registers r)

/-- Settles O46: each clause names a case of the edge, whose frame gives the registers. -/
theorem modeAndUnitAreLatchedPerCall : Obligations.ModeAndUnitAreLatchedPerCall := by
  intro s t hrst hstep nop first c
  obtain ⟨r, he, rfl⟩ := step_inversion hstep
  have hnop (hctl : s.ctl = .idle) (hn : nop) : r.nextCycle = s.nextCycle :=
    (EdgeCase.noCommand hrst hctl hn).next_eq hstep
  have hplay (hctl : s.ctl = .idle) (hcmd : s.ports.cmd = 0b01#2) := (EdgeCase.play hrst hctl hcmd).next_eq hstep
  have hsend (hctl : s.ctl = .idle) (hcmd : s.ports.cmd = 0b10#2) := (EdgeCase.send hrst hctl hcmd).next_eq hstep
  have hwait (hctl : s.ctl = .charGap) (hnow : s.ports.now.toNat < s.deadline.toNat) :=
    (EdgeCase.wait hrst (by simp [hctl]) hnow).next_eq hstep
  have hgap (hctl : s.ctl = .charGap) (hnow : s.deadline.toNat ≤ s.ports.now.toNat) :=
    (EdgeCase.charGapEnd hrst hctl hnow).next_eq hstep
  refine ⟨fun h => ?_, fun hctl hn => ?_, fun hctl hcmd => ?_, fun hctl hcmd => ?_, fun hctl hcmd hterm => ?_,
    fun hctl hcmd hchar => ?_, fun hctl hctl' => ?_, fun hctl h => ?_, fun hctl hnow hchar => ?_, fun hctl hidx => ?_⟩
  · by_cases hctl : s.ctl = .idle
    · rw [hnop hctl (h.resolve_left (not_not.2 hctl))]; simp
    · simpa using he.mode_unit_of_busy hrst hctl
  · rw [hnop hctl hn]; simp
  · rw [hplay hctl hcmd]; simp [State.latchPlay]
  · rw [hsend hctl hcmd]; simp [State.latchSend]
  · rw [hsend hctl hcmd, fetch_of_term s.latchSend _ _ hterm]; simp [State.latchSend]
  · rw [hsend hctl hcmd, fetch_of_char s.latchSend _ _ hchar]; simp [first, State.latchSend]
  · simpa using he.character_kept hrst hctl hctl'
  · rcases Nat.lt_or_ge s.ports.now.toNat s.deadline.toNat with hnow | hnow
    · rw [hwait hctl hnow]; simp
    · have hterm : c = 0x00#8 := h.resolve_left (Nat.not_lt.2 hnow)
      rw [hgap hctl hnow, fetch_of_term s _ _ hterm]; simp
  · rw [hgap hctl hnow, fetch_of_char s _ _ hchar]; simp [c]
  · have hfirst : AtFirstElement r := (he.idx_at_begin hrst hctl).resolve_left (by simpa using hidx)
    simpa [AtFirstElement] using hfirst

/-- Settles O54, by the commuting square of each case of the edge. -/
theorem lookingAlikeIsKeptByAStep : Obligations.LookingAlikeIsKeptByAStep := by
  intro s s' t t' h hstep hstep'
  obtain ⟨t₁, ht₁, hlook⟩ := h.step_commutes hstep
  obtain rfl : t₁ = t' := Host.Outcome.next.inj (ht₁.symm.trans hstep')
  exact hlook

/-- Settles O50: idle, silent states look alike, and looking alike fixes `TONE_ON` and `BUSY`. -/
theorem staleRegistersAreInvisible : Obligations.StaleRegistersAreInvisible := by
  intro s s' n hctl hctl' htone htone' henv
  obtain ⟨t, t', hrun, hrun', hlook⟩ := (looksAlike_of_idle henv (htone.trans htone'.symm) hctl hctl').run n
  have hbusy : busy t = busy t' := congrArg (· != Ctl.idle) hlook.ctl
  exact ⟨t, t', hrun, hrun', hlook.tone, hbusy⟩

end Sys2Proof.Machine
end

section
/-! SUPPORT. What a read of the message memory finds after a write. -/

namespace Sys2Proof.Machine

theorem memRead_cons (k : Nat) (v : Byte) (m : Memory) (a : Nat) :
    memRead ((k, v) :: m) a = if k = a then v else memRead m a := rfl

/-- A canonical memory lists no address that lies below all of its own. -/
theorem memRead_of_memAbove {a : Nat} :
    ∀ {m : Memory}, memWf m = true → memAbove a m = true → memRead m a = Config.unlistedByte
  | [], _, _ => rfl
  | (k, v) :: m, hwf, habove => by
    have hlt : a < k := by simpa [memAbove] using habove
    obtain ⟨-, -, hab, hm⟩ := memWf_cons.1 hwf
    rw [memRead_cons, if_neg (by omega)]
    exact memRead_of_memAbove hm (memAbove_trans hlt hab)

/-- An entry put in front of a memory that does not list its address is read there and nowhere else, also where
the byte is the one that needs no entry. -/
theorem memRead_putFront {m : Memory} {a : Nat} (b : Byte) (x : Nat) (h : memRead m a = Config.unlistedByte) :
    memRead (if b = Config.unlistedByte then m else (a, b) :: m) x = if x = a then b else memRead m x := by
  by_cases hx : x = a
  · rw [if_pos hx, hx]
    by_cases hb : b = Config.unlistedByte
    · rw [if_pos hb, h, hb]
    · rw [if_neg hb, memRead_cons, if_pos rfl]
  · rw [if_neg hx]
    by_cases hb : b = Config.unlistedByte
    · rw [if_pos hb]
    · rw [if_neg hb, memRead_cons, if_neg (Ne.symm hx)]

/-- A read after a write, along the list that the write walks. -/
theorem memRead_memWrite (a x : Nat) (b : Byte) :
    ∀ {m : Memory}, memWf m = true → memRead (memWrite m a b) x = if x = a then b else memRead m x
  | [], _ => memRead_putFront b x rfl
  | (k, v) :: m, hwf => by
    obtain ⟨-, -, hab, hm⟩ := memWf_cons.1 hwf
    unfold memWrite
    split
    case isTrue hlt => exact memRead_putFront b x (memRead_of_memAbove hwf (by simp [memAbove, hlt]))
    case isFalse hge =>
      split
      case isTrue heq =>
        subst heq
        rw [memRead_putFront b x (memRead_of_memAbove hm hab), memRead_cons]
        by_cases hx : x = a
        · rw [if_pos hx, if_pos hx]
        · rw [if_neg hx, if_neg hx, if_neg (Ne.symm hx)]
      case isFalse hne =>
        rw [memRead_cons, memRead_memWrite a x b hm, memRead_cons]
        by_cases hx : k = x
        · rw [if_pos hx, if_neg (by omega), if_pos hx]
        · rw [if_neg hx, if_neg hx]

end Sys2Proof.Machine
end

section
/-! SUPPORT. The procedures inside an edge neither write the environment's side of the state nor read it but
through their arguments: putting a state in another environment commutes with each of them. -/

namespace Sys2Proof.Machine

/-- The registers of `s` with the environment's side of `e`. -/
def State.inEnvironment (s e : State) : State := { s with ports := e.ports, script := e.script, mem := e.mem }

theorem sameRegisters_inEnvironment (s e : State) : SameRegisters s (s.inEnvironment e) := by
  constructor <;> rfl

/-- A state that another's environment does not change is in that environment. -/
theorem sameEnvironment_of_eq {s r : State} (h : r = r.inEnvironment s) : SameEnvironment s r := by
  rw [h]
  constructor <;> rfl

theorem SameRegisters.nextCycle {s t : State} (h : SameRegisters s t) : SameRegisters s.nextCycle t.nextCycle := by
  obtain ⟨hctl, hmode, hpat, hidx, hunit, hdeadline, hptr, htone⟩ := h
  constructor <;> simpa

section
variable (s e : State) (p : Byte) (m : Mode) (i : Nat) (u : Duration) (now : Tick) {a : Addr}

theorem finishChar_inEnvironment :
    (s.inEnvironment e).finishChar m u now = (s.finishChar m u now).inEnvironment e := by
  cases m <;> rfl

theorem startElem_inEnvironment :
    (s.inEnvironment e).startElem p i u now = (s.startElem p i u now).inEnvironment e := by
  unfold State.startElem
  cases elem p i <;> rfl

theorem beginChar_inEnvironment :
    (s.inEnvironment e).beginChar p m u now = (s.beginChar p m u now).inEnvironment e := by
  unfold State.beginChar
  split_ifs
  · rfl
  · exact finishChar_inEnvironment (s.setPattern p) e m u now
  · exact startElem_inEnvironment ((s.setPattern p).setIdx (BitVec.ofNat 3 (nelem p - 1))) e p _ u now

/-- `Fetch` reads one byte of the message memory. -/
theorem fetch_inEnvironment (hbyte : memRead e.mem a.toNat = memRead s.mem a.toNat) :
    (s.inEnvironment e).fetch a u now = (s.fetch a u now).inEnvironment e := by
  have hread : msgRead (s.inEnvironment e) a = msgRead s a := hbyte
  unfold State.fetch
  rw [hread]
  split_ifs
  · rfl
  · exact beginChar_inEnvironment (s.setMsgPtr (a + 1)) e _ .msg u now

end

/-! ## What latches or samples a port commutes where the two environments agree on that port -/

section
variable {s e : State}

theorem latchPlay_inEnvironment (hunit : s.ports.unitIn = e.ports.unitIn) :
    (s.inEnvironment e).latchPlay = s.latchPlay.inEnvironment e := by
  unfold State.latchPlay
  rw [hunit]; rfl

theorem latchSend_inEnvironment (hunit : s.ports.unitIn = e.ports.unitIn)
    (hbase : s.ports.msgBase = e.ports.msgBase) :
    (s.inEnvironment e).latchSend = s.latchSend.inEnvironment e := by
  unfold State.latchSend
  rw [hunit, hbase]; rfl

theorem elementExpiry_inEnvironment (hnow : s.ports.now = e.ports.now) :
    (s.inEnvironment e).elementExpiry = s.elementExpiry.inEnvironment e := by
  unfold State.elementExpiry
  rw [hnow]; rfl

theorem spaceExpiry_inEnvironment (hnow : s.ports.now = e.ports.now) :
    (s.inEnvironment e).spaceExpiry = s.spaceExpiry.inEnvironment e := by
  unfold State.spaceExpiry
  rw [hnow]
  exact finishChar_inEnvironment s e s.mode s.unit _

theorem gapExpiry_inEnvironment (hnow : s.ports.now = e.ports.now) :
    (s.inEnvironment e).gapExpiry = s.gapExpiry.inEnvironment e := by
  by_cases hlast : s.idx = 0
  · rw [gapExpiry_of_last hlast, gapExpiry_of_last (s := s.inEnvironment e) hlast, hnow]
    exact finishChar_inEnvironment s e s.mode s.unit _
  · rw [gapExpiry_of_more hlast, gapExpiry_of_more (s := s.inEnvironment e) hlast, hnow]
    exact startElem_inEnvironment (s.setIdx (s.idx - 1)) e s.pattern _ s.unit _

end

end Sys2Proof.Machine
end

section
/-! SUPPORT. What `exec` of any instruction can do, said once, and that none of it touches the environment. -/

namespace Sys2Proof.Machine

/-- `InstrEffect s t`: some instruction takes `s` to `t`; one constructor per kind of instruction (R64, R106,
R135, R141 to R144; log 10). -/
inductive InstrEffect (s : State) : State → Prop where
  /-- NOP, RESERVED, and PLAY or SEND while busy -/
  | unchanged : InstrEffect s s
  /-- a character of a message, through its pattern -/
  | character (p : Byte) : InstrEffect s (s.playSymbol p s.msgPtr s.unit s.ports.now)
  /-- the terminator -/
  | endMessage : InstrEffect s s.endMessage
  /-- a pattern -/
  | pattern (p : Byte) : InstrEffect s (s.playPattern p)
  /-- PLAY is accepted -/
  | play (hctl : s.ctl = .idle) :
      InstrEffect s (s.latchPlay.beginChar s.ports.patIn .char s.ports.unitIn s.ports.now)
  /-- SEND is accepted -/
  | send (hctl : s.ctl = .idle) :
      InstrEffect s (s.latchSend.fetch s.ports.msgBase s.ports.unitIn s.ports.now)

/-- Every instruction answers one of these states. -/
theorem exec_effect (i : Instr) (s : State) : ∃ t, exec i s = .next t ∧ InstrEffect s t := by
  cases i with
  | nop | reserved => exact ⟨s, rfl, .unchanged⟩
  | play =>
    by_cases hctl : s.ctl = .idle
    · exact ⟨_, congrArg Host.Outcome.next (if_pos hctl), .play hctl⟩
    · exact ⟨_, congrArg Host.Outcome.next (if_neg hctl), .unchanged⟩
  | send =>
    by_cases hctl : s.ctl = .idle
    · exact ⟨_, congrArg Host.Outcome.next (if_pos hctl), .send hctl⟩
    · exact ⟨_, congrArg Host.Outcome.next (if_neg hctl), .unchanged⟩
  | msgTerm => exact ⟨_, rfl, .endMessage⟩
  | patSpace | pat0 | patNoStart | pat1 _ | pat2 _ | pat3 _ | pat4 _ | pat5 _ | pat6 _ | pat7 _ =>
    exact ⟨_, rfl, .pattern _⟩
  | _ => exact ⟨_, rfl, .character _⟩ -- the characters: 41 codes and FALLBACK

/-- Inversion of `exec`. -/
theorem exec_inversion {i : Instr} {s t : State} (h : exec i s = .next t) : InstrEffect s t := by
  obtain ⟨t', hexec, ht'⟩ := exec_effect i s
  obtain rfl : t' = t := Host.Outcome.next.inj (hexec.symm.trans h)
  exact ht'

/-- No instruction writes the ports, the script or the message memory (R25, R30). -/
theorem InstrEffect.sameEnvironment {s t : State} (h : InstrEffect s t) : SameEnvironment s t := by
  cases h with
  | unchanged | endMessage => exact ⟨rfl, rfl, rfl⟩
  | character p => exact sameEnvironment_of_eq (beginChar_inEnvironment (s.setMsgPtr (s.msgPtr + 1)) s p .msg _ _)
  | pattern p => exact sameEnvironment_of_eq (beginChar_inEnvironment s s p _ _ _)
  | play _ => exact sameEnvironment_of_eq (beginChar_inEnvironment s.latchPlay s _ _ _ _)
  | send _ => exact sameEnvironment_of_eq (fetch_inEnvironment s.latchSend s _ _ rfl)

end Sys2Proof.Machine
end

section
/-! SUPPORT. What an edge leaves unchanged of the environment, and what it reads of it. -/

namespace Sys2Proof.Machine

variable {s e r t : State}

/-- No edge writes the ports, the script or the message memory. -/
theorem EdgeCase.sameEnvironment (he : EdgeCase s r) : SameEnvironment s r := by
  cases he with
  | reset _ | noCommand _ _ _ | wait _ _ _ | elementEnd _ _ _ => exact ⟨rfl, rfl, rfl⟩
  | play _ hctl _ => exact (InstrEffect.play hctl).sameEnvironment
  | send _ hctl _ => exact (InstrEffect.send hctl).sameEnvironment
  | interElementEnd _ _ _ => exact sameEnvironment_of_eq (gapExpiry_inEnvironment (e := s) rfl)
  | spaceEnd _ _ _ => exact sameEnvironment_of_eq (spaceExpiry_inEnvironment (e := s) rfl)
  | charGapEnd _ _ _ => exact sameEnvironment_of_eq (fetch_inEnvironment s s _ _ rfl)

/-- What the environment holds after a step is its own move and nothing else. -/
theorem step_environment (h : step s = .next t) : SameEnvironment s.nextCycle t := by
  obtain ⟨r, he, rfl⟩ := step_inversion h
  exact he.sameEnvironment.nextCycle

theorem nextCycle_of_unscripted (h : s.script = []) : s.nextCycle = s.setPorts s.ports.coast := by
  unfold State.nextCycle
  rw [h]

theorem nextCycle_of_scripted {c : EnvCycle} {cs : List EnvCycle} (h : s.script = c :: cs) :
    s.nextCycle = ((s.setScript cs).setMem (memWriteAll s.mem c.writes)).setPorts c.ports := by
  unfold State.nextCycle
  rw [h]

/-- The environment's move keeps the canonical form of the message memory. -/
theorem memWf_nextCycle (h : memWf s.mem = true) : memWf s.nextCycle.mem = true := by
  cases hscript : s.script with
  | nil => rw [nextCycle_of_unscripted hscript]; exact h
  | cons c cs => rw [nextCycle_of_scripted hscript]; exact memWf_memWriteAll c.writes h

/-- The edges that use `MSG_DATA`: one that accepts a SEND, and the expiry of CHAR_GAP (R35). -/
def AtFetchEdge (s : State) : Prop :=
  s.ports.rst = false ∧
    ((s.ctl = .idle ∧ s.ports.cmd = 0b10#2) ∨ (s.ctl = .charGap ∧ s.deadline.toNat ≤ s.ports.now.toNat))

/-- The environment of `e` shows the edge from `s` what that of `s` does: the levels on the ports that the
controller samples and, where the edge uses it, the byte on `MSG_DATA`. `ROM_CHAR` and `DEC_PAT` are not
sampled (R44), nor is the rest of the memory (R35). -/
structure SameInputs (s e : State) : Prop where
  rst : s.ports.rst = e.ports.rst
  now : s.ports.now = e.ports.now
  cmd : s.ports.cmd = e.ports.cmd
  unitIn : s.ports.unitIn = e.ports.unitIn
  patIn : s.ports.patIn = e.ports.patIn
  msgBase : s.ports.msgBase = e.ports.msgBase
  msgData : AtFetchEdge s → memRead e.mem (msgAddr s).toNat = memRead s.mem (msgAddr s).toNat

/-- The expiry of CHAR_GAP, the other of the two fetch edges, with another memory, `ROM_CHAR` and `DEC_PAT`. -/
theorem witness_sameInputs_charGap :
    let s := { State.reset with ctl := .charGap, mode := .msg, mem := [(0, 0x45#8)] }
    let e := { s with ports := { s.ports with romChar := 0x41#8, decPat := 0xF9#8 }, mem := [(0, 0x45#8), (1, 0x54#8)] }
    AtFetchEdge s ∧ SameInputs s e :=
  ⟨⟨rfl, .inr ⟨rfl, by decide⟩⟩, rfl, rfl, rfl, rfl, rfl, rfl, fun _ => by decide⟩

/-- The commuting square of an edge: in an environment that shows it the same inputs, a state follows the same
case to the same registers. -/
theorem EdgeCase.inEnvironment (he : EdgeCase s r) (hin : SameInputs s e) :
    EdgeCase (s.inEnvironment e) (r.inEnvironment e) := by
  obtain ⟨hrst', hnow', hcmd', hunit, hpat, hbase, hdata⟩ := hin
  cases he with
  | reset hrst => exact .reset (hrst' ▸ hrst)
  | noCommand hrst hctl hcmd => exact .noCommand (hrst' ▸ hrst) hctl (hcmd' ▸ hcmd)
  | play hrst hctl hcmd =>
    rw [← beginChar_inEnvironment, ← latchPlay_inEnvironment hunit, hpat, hunit, hnow']
    exact .play (hrst' ▸ hrst) hctl (hcmd' ▸ hcmd)
  | send hrst hctl hcmd =>
    have haddr : msgAddr s = s.ports.msgBase := if_pos hctl
    have hbyte := haddr ▸ hdata ⟨hrst, .inl ⟨hctl, hcmd⟩⟩
    rw [← fetch_inEnvironment s.latchSend e _ _ hbyte, ← latchSend_inEnvironment hunit hbase, hbase, hunit, hnow']
    exact .send (hrst' ▸ hrst) hctl (hcmd' ▸ hcmd)
  | wait hrst hctl hnow => exact .wait (hrst' ▸ hrst) hctl (hnow' ▸ hnow)
  | elementEnd hrst hctl hnow =>
    rw [← elementExpiry_inEnvironment hnow']
    exact .elementEnd (hrst' ▸ hrst) hctl (hnow' ▸ hnow)
  | interElementEnd hrst hctl hnow =>
    rw [← gapExpiry_inEnvironment hnow']
    exact .interElementEnd (hrst' ▸ hrst) hctl (hnow' ▸ hnow)
  | spaceEnd hrst hctl hnow =>
    rw [← spaceExpiry_inEnvironment hnow']
    exact .spaceEnd (hrst' ▸ hrst) hctl (hnow' ▸ hnow)
  | charGapEnd hrst hctl hnow =>
    have haddr : msgAddr s = s.msgPtr := if_neg (by simp [hctl])
    have hbyte := haddr ▸ hdata ⟨hrst, .inr ⟨hctl, hnow⟩⟩
    rw [← fetch_inEnvironment s e _ _ hbyte, hnow']
    exact .charGapEnd (hrst' ▸ hrst) hctl (hnow' ▸ hnow)

/-- The registers after a step depend on no more of the environment than the inputs of the edge. -/
theorem step_registers_of_sameInputs (h : SameInputs s e) :
    ∃ t t', step s = .next t ∧ step (s.inEnvironment e) = .next t' ∧ SameRegisters t t' := by
  obtain ⟨r, he⟩ := edgeCase_exists s
  exact ⟨_, _, he.step_eq, (he.inEnvironment h).step_eq, (sameRegisters_inEnvironment r e).nextCycle⟩

end Sys2Proof.Machine
end

section
/-! The obligations of 20_memory.md. -/

namespace Sys2Proof.Machine

/-- Settles O13: the controller samples neither `ROM_CHAR` nor `DEC_PAT`. -/
theorem lookupPortIsPassive : Obligations.LookupPortIsPassive := by
  intro s c p
  have hin : SameInputs s { s with ports := { s.ports with romChar := c, decPat := p } } := by
    constructor <;> intros <;> rfl
  exact ⟨rfl, step_registers_of_sameInputs hin⟩

/-- Settles O43: no edge writes the memory, and the environment's move keeps its form. -/
theorem memoryStaysCanonical : Obligations.MemoryStaysCanonical := by
  refine ⟨fun s t hwf hstep => ?_, rfl⟩
  rw [← (step_environment hstep).mem]
  exact memWf_nextCycle hwf

/-- Settles O44, by induction along the canonical list. -/
theorem memoryReadsWhatWasWritten : Obligations.MemoryReadsWhatWasWritten :=
  fun _ a x v hwf => memRead_memWrite a x v hwf

/-- Settles O45: the frame of `exec`, and the environment's move with and without a scripted cycle. -/
theorem instructionsNeverWriteMemory : Obligations.InstructionsNeverWriteMemory := by
  refine ⟨fun i s t hexec => (exec_inversion hexec).sameEnvironment, fun s t hstep => ?_⟩
  obtain ⟨hports, hscript, hmem⟩ := step_environment hstep
  refine ⟨fun hnil => ?_, fun c cs hcons => ?_⟩
  · rw [← hmem, nextCycle_of_unscripted hnil]; rfl
  · rw [← hmem, ← hscript, ← hports, nextCycle_of_scripted hcons]
    exact ⟨rfl, rfl, rfl⟩

/-- Settles O47: of the memory an edge reads only the byte at MSG_ADDR, and only where it fetches. -/
theorem messageDataIsUsedAtFetchEdgesOnly : Obligations.MessageDataIsUsedAtFetchEdgesOnly := by
  intro s m hbyte
  have hin : SameInputs s { s with mem := m } :=
    ⟨rfl, rfl, rfl, rfl, rfl, rfl, fun ⟨hrst, hfetch⟩ => hbyte hrst hfetch⟩
  exact step_registers_of_sameInputs hin

end Sys2Proof.Machine
end

section
/-! SUPPORT. The characters' codes: the 41 rows of the decoder against the encoder and against the list of
supported codes (30_encoding.md R53, R54, R60). -/

namespace Sys2Proof.Machine

/-- Each row of the decoder is an instruction of CHAR8 whose word is the row's code. -/
theorem charRow_spec : ∀ r ∈ charRows, r.2.wellFormed = true ∧ r.2.format = .char8 ∧ encode r.2 = r.1 := by
  decide

/-- Each row's code is supported. -/
theorem supportedCode_charRow : ∀ r ∈ charRows, supportedCode r.1 = true := by
  decide

/-- Each supported code has a row. -/
theorem mem_codes_of_supported : ∀ c : Byte, supportedCode c = true → c ∈ charRows.map Prod.fst := by
  decide

/-- The unsupported codes are those that no row matches (R54). -/
theorem lookup_charRows_eq_none_iff (c : Byte) : charRows.lookup c = none ↔ supportedCode c = false := by
  cases hrow : charRows.lookup c with
  | none =>
    refine iff_of_true rfl (Bool.eq_false_iff.2 fun hsup => ?_)
    obtain ⟨r, hr, rfl⟩ := List.mem_map.1 (mem_codes_of_supported c hsup)
    simpa using List.lookup_eq_none_iff.1 hrow r hr
  | some i =>
    obtain ⟨before, after, hsplit, -⟩ := List.lookup_eq_some_iff.1 hrow
    have hsup : supportedCode c = true := supportedCode_charRow (c, i) (by simp [hsplit])
    exact iff_of_false (Option.some_ne_none i) (by simp [hsup])

/-- An unsupported code looks up the sentinel (R106). -/
theorem romRead_of_unsupported {c : Byte} (h : supportedCode c = false) : romRead c = spacePattern :=
  romRead_of_lookup_none ((lookup_charRows_eq_none_iff c).2 h)

/-- Everything `decodeChar` can answer, in the order of tests of R60. -/
theorem decodeChar_inversion (c : Byte) :
    (c = msgTerm ∧ decodeChar c = .msgTerm)
    ∨ (c ≠ msgTerm ∧ ∃ i, (c, i) ∈ charRows ∧ decodeChar c = i)
    ∨ (c ≠ msgTerm ∧ supportedCode c = false ∧ decodeChar c = .fallback c) := by
  unfold decodeChar
  by_cases hterm : c = msgTerm
  · exact .inl ⟨hterm, if_pos hterm⟩
  rw [if_neg hterm]
  cases hrow : charRows.lookup c with
  | some i =>
    obtain ⟨before, after, hsplit, -⟩ := List.lookup_eq_some_iff.1 hrow
    exact .inr (.inl ⟨hterm, i, by simp [hsplit], rfl⟩)
  | none => exact .inr (.inr ⟨hterm, (lookup_charRows_eq_none_iff c).1 hrow, rfl⟩)

/-- A decoded character is an instruction of CHAR8 whose word is the byte. -/
theorem decodeChar_spec (c : Byte) :
    (decodeChar c).wellFormed = true ∧ (decodeChar c).format = .char8 ∧ encode (decodeChar c) = c := by
  rcases decodeChar_inversion c with ⟨rfl, h⟩ | ⟨-, i, hrow, h⟩ | ⟨hterm, hunsup, h⟩ <;> rw [h]
  · exact ⟨rfl, rfl, rfl⟩
  · exact charRow_spec _ hrow
  · exact ⟨by simp [Instr.wellFormed, hunsup, hterm], rfl, rfl⟩

/-- A well-formed FALLBACK keeps a byte that no earlier test of R60 takes. -/
theorem decodeChar_fallback {c : Byte} (h : (Instr.fallback c).wellFormed = true) : decodeChar c = .fallback c := by
  obtain ⟨hunsup, hterm⟩ : supportedCode c = false ∧ c ≠ msgTerm := by simpa [Instr.wellFormed] using h
  unfold decodeChar
  rw [if_neg hterm, (lookup_charRows_eq_none_iff c).2 hunsup]

/-- A decoded command is an instruction of CMD2 whose word is the command. -/
theorem decodeCmd_spec : ∀ c : BitVec 2,
    (decodeCmd c).wellFormed = true ∧ (decodeCmd c).format = .cmd2 ∧ encode (decodeCmd c) = c.setWidth 8 := by
  decide

end Sys2Proof.Machine
end

section
/-! SUPPORT. The start bit of a pattern, and the classes of bytes by its position (30_encoding.md R50, R52,
41_pattern_decoder.md R113 to R115). -/

namespace Sys2Proof.Machine

/-- The scan answers the highest 0 below `k`. -/
theorem scanStart_eq_some_iff {p : Byte} {n : Nat} : ∀ {k : Nat}, scanStart p k = some n ↔
    n < k ∧ p.getLsbD n = false ∧ ∀ i, n < i → i < k → p.getLsbD i = true
  | 0 => by simp [scanStart]
  | k + 1 => by
    unfold scanStart
    split
    case isTrue hzero =>
      rw [Option.some_inj]
      constructor
      · rintro rfl
        exact ⟨by omega, hzero, fun i _ _ => by omega⟩
      · rintro ⟨hn, -, hones⟩
        by_contra hne
        have hk := hones k (by omega) (by omega)
        simp [hzero] at hk
    case isFalse hone =>
      rw [scanStart_eq_some_iff]
      have hk : p.getLsbD k = true := by simpa using hone
      constructor
      · rintro ⟨hn, hzero, hones⟩
        refine ⟨by omega, hzero, fun i hi hik => ?_⟩
        rcases Nat.lt_succ_iff_lt_or_eq.1 hik with h | rfl
        · exact hones i hi h
        · exact hk
      · rintro ⟨hn, hzero, hones⟩
        have hne : n ≠ k := by rintro rfl; exact hone hzero
        exact ⟨by omega, hzero, fun i hi hik => hones i hi (by omega)⟩

/-- The start bit: a 0 with ones above it (R46, R113). -/
theorem startPos_eq_some_iff {p : Byte} {n : Nat} : startPos p = some n ↔
    n < 8 ∧ p.getLsbD n = false ∧ ∀ i, n < i → i < 8 → p.getLsbD i = true :=
  scanStart_eq_some_iff

/-- A byte is its start bit's position and the bits below it. -/
theorem eq_of_startPos {p q : Byte} {n : Nat} (hp : startPos p = some n) (hq : startPos q = some n)
    (hbits : ∀ i, i < n → p.getLsbD i = q.getLsbD i) : p = q := by
  obtain ⟨-, hp0, hp1⟩ := startPos_eq_some_iff.1 hp
  obtain ⟨-, hq0, hq1⟩ := startPos_eq_some_iff.1 hq
  refine BitVec.eq_of_getLsbD_eq fun i hi => ?_
  rcases Nat.lt_trichotomy i n with h | rfl | h
  · exact hbits i h
  · rw [hp0, hq0]
  · rw [hp1 i h hi, hq1 i h hi]

/-- Only the byte of all ones has no start bit (R50). -/
theorem startPos_eq_none_iff : ∀ p : Byte, startPos p = none ↔ p = 0xFF#8 := by
  decide

/-- The start bit at 0 leaves one byte, `0xFE`. -/
theorem startPos_eq_zero_iff (p : Byte) : startPos p = some 0 ↔ p = 0xFE#8 :=
  ⟨fun h => eq_of_startPos h rfl (by simp), fun h => h ▸ rfl⟩

/-- The start bit is bit 7 in the bytes below `0x80`. -/
theorem startPos_eq_seven_iff (p : Byte) : startPos p = some 7 ↔ p.toNat < 0x80 := by
  have hmsb : p.getLsbD 7 = decide (2 ^ 7 ≤ p.toNat) := BitVec.msb_eq_decide p
  rw [startPos_eq_some_iff, hmsb]
  constructor
  · rintro ⟨-, h, -⟩
    simpa using h
  · exact fun h => ⟨by omega, by simpa using h, fun i _ _ => by omega⟩

/-- The bytes between have a start bit at 1 to 6 (R52). -/
theorem startPos_of_middle {p : Byte} (hlow : 0x80 ≤ p.toNat) (hhigh : p.toNat ≤ 0xFD) :
    ∃ n, startPos p = some n ∧ 1 ≤ n ∧ n ≤ 6 := by
  cases hstart : startPos p with
  | none =>
    obtain rfl := (startPos_eq_none_iff p).1 hstart
    simp at hhigh
  | some n =>
    obtain ⟨hn, -, -⟩ := startPos_eq_some_iff.1 hstart
    have hzero : n ≠ 0 := by
      rintro rfl
      obtain rfl := (startPos_eq_zero_iff p).1 hstart
      simp at hhigh
    have hseven : n ≠ 7 := by
      rintro rfl
      have := (startPos_eq_seven_iff p).1 hstart
      omega
    exact ⟨n, rfl, by omega, by omega⟩

/-- The sentinel's start bit. -/
theorem startPos_space : startPos spacePattern = some 4 := rfl

/-- `nelem` is the start bit's position, but for the sentinel (R115). -/
theorem nelem_of_startPos {p : Byte} {n : Nat} (hspace : p ≠ spacePattern) (h : startPos p = some n) :
    nelem p = n := by
  simp [nelem, isSpace, hspace, h]

/-- A pattern with an element is not the sentinel and has its start bit at `nelem`. -/
theorem startPos_of_nelem_pos {p : Byte} (h : 1 ≤ nelem p) : p ≠ spacePattern ∧ startPos p = some (nelem p) := by
  unfold nelem at h ⊢
  split at h
  case isTrue => omega
  case isFalse hspace =>
    refine ⟨by simpa [isSpace] using hspace, ?_⟩
    cases hstart : startPos p with
    | none => simp [hstart] at h
    | some n => simp [hspace]

/-- The documented domain is one interval (R52): below it every byte has seven elements, above it none has one. -/
theorem documented_iff (p : Byte) : documented p = true ↔ 0x80 ≤ p.toNat ∧ p.toNat ≤ 0xFD := by
  by_cases hspace : p = spacePattern
  · subst hspace; decide
  have hdef : documented p = true ↔ p.getLsbD 7 = true ∧ 1 ≤ nelem p := by simp [documented, isSpace, hspace]
  have hmsb : p.getLsbD 7 = decide (0x80 ≤ p.toNat) := BitVec.msb_eq_decide p
  rw [hdef, hmsb, decide_eq_true_eq, and_congr_right_iff]
  intro hlow
  constructor
  · intro hpos
    have hfe : p ≠ 0xFE#8 := by rintro rfl; exact absurd hpos (by decide)
    have hff : p ≠ 0xFF#8 := by rintro rfl; exact absurd hpos (by decide)
    bv_omega
  · intro hhigh
    obtain ⟨n, hstart, hpos, -⟩ := startPos_of_middle hlow hhigh
    rwa [nelem_of_startPos hspace hstart]

end Sys2Proof.Machine
end

section
/-! SUPPORT. The pattern words with a start bit as one family over the number of elements: encoding, decoding
and effect (30_encoding.md R46 to R49, 42_element_player.md R121, R122). -/

namespace Sys2Proof.Machine

/-- The layout of R47 for any number of elements: ones, the start bit at `n`, the element bits below it. -/
def patternWord {n : Nat} (e : BitVec n) : Byte := (BitVec.allOnes 8 <<< (n + 1)) ||| e.setWidth 8

/-- The instruction of `n` elements (R47), for `n` up to 7, the highest position of a start bit;
`encode_patternInstr` ties it to its word. -/
def patternInstr : (n : Nat) → BitVec n → Instr
  | 0, _ => .pat0
  | 1, e => .pat1 e
  | 2, e => .pat2 e
  | 3, e => .pat3 e
  | 4, e => .pat4 e
  | 5, e => .pat5 e
  | 6, e => .pat6 e
  | 7, e => .pat7 e
  | _, _ => .patNoStart

section
variable {n : Nat} (e : BitVec n)

theorem getLsbD_patternWord {i : Nat} (hi : i < 8) :
    (patternWord e).getLsbD i = (decide (n < i) || e.getLsbD i) := by
  by_cases h : n < i
  · have hlow : i - (n + 1) < 8 := by omega
    simp only [patternWord, BitVec.getLsbD_or, BitVec.getLsbD_shiftLeft, BitVec.getLsbD_allOnes]
    simp [hi, h, hlow]
  · simp [patternWord, hi, h, show i < n + 1 by omega]

theorem startPos_patternWord (hn : n ≤ 7) : startPos (patternWord e) = some n := by
  refine startPos_eq_some_iff.2 ⟨by omega, ?_, fun i hi h8 => ?_⟩
  · simp [getLsbD_patternWord e (show n < 8 by omega)]
  · simp [getLsbD_patternWord e h8, hi]

/-- The element bits are read back from the low end of the word. -/
theorem setWidth_patternWord (hn : n ≤ 7) : (patternWord e).setWidth n = e := by
  refine BitVec.eq_of_getLsbD_eq fun i hi => ?_
  simp [hi, getLsbD_patternWord e (show i < 8 by omega), Nat.le_of_lt hi]

/-- A byte with its start bit at `n` is the word of the bits below it. -/
theorem patternWord_setWidth {p : Byte} (h : startPos p = some n) : patternWord (p.setWidth n) = p := by
  obtain ⟨hn, -, -⟩ := startPos_eq_some_iff.1 h
  refine eq_of_startPos (startPos_patternWord _ (by omega)) h fun i hi => ?_
  simp [getLsbD_patternWord _ (show i < 8 by omega), hi, Nat.le_of_lt hi]

/-- The encoder writes the layout of R47. -/
theorem encode_patternInstr (hn : n ≤ 7) : encode (patternInstr n e) = patternWord e := by
  interval_cases n <;> revert e <;> decide

theorem format_patternInstr : (patternInstr n e).format = .pat8 := by
  unfold patternInstr; split <;> rfl

theorem wellFormed_patternInstr (hn : n ≤ 7) :
    (patternInstr n e).wellFormed = true ↔ patternWord e ≠ spacePattern := by
  interval_cases n <;> revert e <;> decide

/-- The decoder reads the elements below the start bit. -/
theorem decodePat_of_startPos {p : Byte} (hspace : p ≠ spacePattern) (h : startPos p = some n) :
    decodePat p = patternInstr n (p.setWidth n) := by
  obtain ⟨hn, hzero, hones⟩ := startPos_eq_some_iff.1 h
  unfold decodePat
  rw [if_neg hspace]
  interval_cases n <;>
    simp (disch := decide) only [hzero, hones, reduceCtorEq, if_true, if_false, patternInstr]

/-- Decoding the word of a well-formed pattern with a start bit. -/
theorem decodePat_encode_patternInstr (hn : n ≤ 7) (hwf : (patternInstr n e).wellFormed = true) :
    decodePat (encode (patternInstr n e)) = patternInstr n e := by
  have hspace := (wellFormed_patternInstr e hn).1 hwf
  rw [encode_patternInstr e hn, decodePat_of_startPos hspace (startPos_patternWord e hn),
    setWidth_patternWord e hn]

end

/-- A decoded pattern is an instruction of PAT8 whose word is the byte. -/
theorem decodePat_spec (p : Byte) :
    (decodePat p).wellFormed = true ∧ (decodePat p).format = .pat8 ∧ encode (decodePat p) = p := by
  by_cases hspace : p = spacePattern
  · subst hspace; exact ⟨rfl, rfl, rfl⟩
  cases hstart : startPos p with
  | none =>
    obtain rfl := (startPos_eq_none_iff p).1 hstart
    exact ⟨rfl, rfl, rfl⟩
  | some n =>
    have hn : n ≤ 7 := Nat.lt_succ_iff.1 (startPos_eq_some_iff.1 hstart).1
    have hword : patternWord (p.setWidth n) = p := patternWord_setWidth hstart
    rw [decodePat_of_startPos hspace hstart]
    exact ⟨(wellFormed_patternInstr _ hn).2 (by rwa [hword]), format_patternInstr _,
      by rw [encode_patternInstr _ hn, hword]⟩

section
variable {n : Nat} (e : BitVec n) (s : State)

/-- A pattern with a start bit plays its word (log 10). -/
theorem exec_patternInstr (hn : n ≤ 7) :
    exec (patternInstr n e) s = .next (s.playPattern (encode (patternInstr n e))) := by
  interval_cases n <;> rfl

/-- A well-formed pattern of 1 to 7 elements begins with its highest element bit (R114, R121, R122). -/
theorem exec_patternInstr_begins (hpos : 1 ≤ n) (hn : n ≤ 7) (hwf : (patternInstr n e).wellFormed = true) :
    exec (patternInstr n e) s = .next { s with
      pattern := encode (patternInstr n e), idx := BitVec.ofNat 3 (n - 1), tone := true
      deadline := dl s.ports.now (if e.getLsbD (n - 1) = true then 3 else 1) s.unit
      ctl := if e.getLsbD (n - 1) = true then .sendDah else .sendDit } := by
  have hspace : patternWord e ≠ 0xEF#8 := (wellFormed_patternInstr e hn).1 hwf
  have hnelem : nelem (patternWord e) = n := nelem_of_startPos hspace (startPos_patternWord e hn)
  have hbit : (patternWord e).getLsbD (n - 1) = e.getLsbD (n - 1) := by
    simp [getLsbD_patternWord e (show n - 1 < 8 by omega)]
  rw [exec_patternInstr e s hn, encode_patternInstr e hn, State.playPattern,
    beginChar_element s _ _ _ hspace (by omega), hnelem]
  rcases startElem_inversion { s with pattern := patternWord e, idx := BitVec.ofNat 3 (n - 1) }
    (patternWord e) (n - 1) s.unit s.ports.now with ⟨hb, h⟩ | ⟨hb, h⟩
  · simp [h, ← hbit, hb]
  · simp [h, ← hbit, hb]

end

end Sys2Proof.Machine
end

section
/-! SUPPORT. Dot/dash strings and their patterns (30_encoding.md R51): `enc` shifts one element in at a time,
`elementsOf` reads them back from the start bit down. -/

namespace Sys2Proof.Machine

theorem elem_eq_iff (p : Byte) (i : Nat) (e : Element) : elem p i = e ↔ p.getLsbD i = e.bit := by
  cases e
  · exact elem_dit_iff p i
  · exact elem_dah_iff p i

theorem elem_congr_iff (p q : Byte) (i j : Nat) : elem p i = elem q j ↔ p.getLsbD i = q.getLsbD j := by
  rw [elem_eq_iff, ← (elem_eq_iff q j _).1 rfl]

/-! ## Reading elements -/

@[simp] theorem length_elementsBelow (p : Byte) : ∀ n, (elementsBelow p n).length = n
  | 0 => rfl
  | n + 1 => congrArg (· + 1) (length_elementsBelow p n)

/-- The elements below `n` are those bits, no more and no less. -/
theorem elementsBelow_eq_iff {p q : Byte} {n : Nat} :
    elementsBelow p n = elementsBelow q n ↔ ∀ i, i < n → p.getLsbD i = q.getLsbD i := by
  induction n with
  | zero => simp [elementsBelow]
  | succ n ih =>
    rw [elementsBelow, elementsBelow, List.cons.injEq, ih, elem_congr_iff, Nat.forall_lt_succ_right, and_comm]

/-- The element at place `j` from the front is bit `n - 1 - j` (R49). -/
theorem getElem?_elementsBelow {p : Byte} {e : Element} : ∀ {n j : Nat},
    (elementsBelow p n)[j]? = some e → elem p (n - (j + 1)) = e
  | n + 1, 0, h => by simpa [elementsBelow] using h
  | n + 1, j + 1, h => by
    rw [Nat.add_sub_add_right]
    exact getElem?_elementsBelow (by simpa [elementsBelow] using h)

/-! ## Shifting elements in -/

theorem enc_concat (es : List Element) (e : Element) : enc (es ++ [e]) = appendElement (enc es) e := by
  simp [enc]

theorem getLsbD_appendElement_zero (p : Byte) (e : Element) : (appendElement p e).getLsbD 0 = e.bit := by
  simp [appendElement]

theorem getLsbD_appendElement_succ (p : Byte) (e : Element) {i : Nat} (hi : i < 7) :
    (appendElement p e).getLsbD (i + 1) = p.getLsbD i := by
  have h8 : i + 1 < 8 := by omega
  simp [appendElement, h8, BitVec.getLsbD_eq_getElem (show i < 8 by omega)]

/-- The start bit moves up by one. -/
theorem startPos_appendElement {p : Byte} {n : Nat} (e : Element) (hn : n < 7) (h : startPos p = some n) :
    startPos (appendElement p e) = some (n + 1) := by
  obtain ⟨-, hzero, hones⟩ := startPos_eq_some_iff.1 h
  refine startPos_eq_some_iff.2 ⟨by omega, ?_, fun i hi h8 => ?_⟩
  · rw [getLsbD_appendElement_succ p e hn, hzero]
  · obtain ⟨i, rfl⟩ : ∃ k, i = k + 1 := ⟨i - 1, by omega⟩
    rw [getLsbD_appendElement_succ p e (by omega)]
    exact hones i (by omega) (by omega)

/-- The new element comes last. -/
theorem elementsBelow_appendElement (p : Byte) (e : Element) {n : Nat} (hn : n ≤ 7) :
    elementsBelow (appendElement p e) (n + 1) = elementsBelow p n ++ [e] := by
  induction n with
  | zero => exact congrArg (· :: []) ((elem_eq_iff _ 0 e).2 (getLsbD_appendElement_zero p e))
  | succ n ih =>
    rw [elementsBelow, ih (by omega), elementsBelow, List.cons_append,
      (elem_congr_iff _ p _ n).2 (getLsbD_appendElement_succ p e (by omega))]

/-- A string of at most seven elements has its start bit at its length, and reads back below it. -/
theorem enc_spec (es : List Element) (h : es.length ≤ 7) :
    startPos (enc es) = some es.length ∧ elementsBelow (enc es) es.length = es := by
  induction es using List.reverseRecOn with
  | nil => exact ⟨rfl, rfl⟩
  | append_singleton es e ih =>
    rw [List.length_append, List.length_singleton] at h ⊢
    obtain ⟨hstart, hread⟩ := ih (by omega)
    rw [enc_concat, elementsBelow_appendElement _ e (by omega), hread]
    exact ⟨startPos_appendElement e (by omega) hstart, rfl⟩

/-- Only the string of four DAHs encodes to the sentinel (R48, R51). -/
theorem enc_eq_space {es : List Element} (hlen : es.length ≤ 7) (h : enc es = spacePattern) :
    es = [.dah, .dah, .dah, .dah] := by
  obtain ⟨hstart, hread⟩ := enc_spec es hlen
  rw [h] at hstart hread
  obtain hfour : 4 = es.length := by simpa [startPos_space] using hstart
  rw [← hread, ← hfour]
  rfl

/-- `elementsOf` undoes `enc` on every other string of at most seven elements. -/
theorem elementsOf_enc {es : List Element} (hlen : es.length ≤ 7) (hne : es ≠ [.dah, .dah, .dah, .dah]) :
    elementsOf (enc es) = es := by
  obtain ⟨hstart, hread⟩ := enc_spec es hlen
  have hspace : enc es ≠ spacePattern := fun h => hne (enc_eq_space hlen h)
  rw [elementsOf, nelem_of_startPos hspace hstart, hread]

/-- `enc` undoes `elementsOf` on every pattern with an element. -/
theorem enc_elementsOf {p : Byte} (h : 1 ≤ nelem p) : enc (elementsOf p) = p := by
  have hlen : (elementsOf p).length = nelem p := length_elementsBelow p _
  obtain ⟨hstart, hread⟩ := enc_spec (elementsOf p) (hlen ▸ nelem_le p)
  rw [hlen] at hstart hread
  exact eq_of_startPos hstart (startPos_of_nelem_pos h).2 (elementsBelow_eq_iff.1 hread)

end Sys2Proof.Machine
end

section
/-! The obligations of 30_encoding.md. -/

namespace Sys2Proof.Machine

/-- Settles O1: the 41 rows and the commands one by one, FALLBACK by the order of tests, and the words with
a start bit by reading the elements below it. -/
theorem decodingAnEncodedInstructionGivesItBack : Obligations.DecodingAnEncodedInstructionGivesItBack := by
  intro i rest hwf
  cases i with
  | fallback c => exact congrArg (fun i => Except.ok (i, rest)) (decodeChar_fallback hwf)
  | pat1 e | pat2 e | pat3 e | pat4 e | pat5 e | pat6 e | pat7 e =>
    exact congrArg (fun i => Except.ok (i, rest)) (decodePat_encode_patternInstr e (by decide) hwf)
  | _ => rfl -- the fixed words: the characters' codes, the patterns without element bits, the commands

/-- Settles O2: what each of the three decoders answers. -/
theorem decodedWordsAreTheirEncodings : Obligations.DecodedWordsAreTheirEncodings := by
  intro f bytes rest i h
  cases bytes with
  | nil => cases f <;> cases h
  | cons b bs =>
    cases f with
    | char8 =>
      obtain ⟨rfl, rfl⟩ : decodeChar b = i ∧ bs = rest := by simpa [decode] using h
      obtain ⟨hwf, hformat, hword⟩ := decodeChar_spec b
      exact ⟨hwf, hformat, by rw [hword]⟩
    | pat8 =>
      obtain ⟨rfl, rfl⟩ : decodePat b = i ∧ bs = rest := by simpa [decode] using h
      obtain ⟨hwf, hformat, hword⟩ := decodePat_spec b
      exact ⟨hwf, hformat, by rw [hword]⟩
    | cmd2 =>
      by_cases hb : b.toNat < 4
      case neg => simp [decode, hb] at h
      obtain ⟨rfl, rfl⟩ : decodeCmd (b.setWidth 2) = i ∧ bs = rest := by simpa [decode, hb] using h
      obtain ⟨hwf, hformat, hword⟩ := decodeCmd_spec (b.setWidth 2)
      have hwide : (b.setWidth 2).setWidth 8 = b := by bv_omega
      exact ⟨hwf, hformat, by rw [hword, hwide]⟩

/-- Settles O4: `exec` of a decoded byte, and the sentinel for a code outside the table. -/
theorem messageByteHasThreeOutcomes : Obligations.MessageByteHasThreeOutcomes := by
  intro c s
  rw [exec_decodeChar]
  refine ⟨fun (hterm : c = msgTerm) => ?_, fun (hterm : c ≠ msgTerm) _ => ?_,
    fun (hterm : c ≠ msgTerm) hunsup => ?_⟩
  · rw [if_pos hterm]; rfl
  · rw [if_neg hterm]; rfl
  · rw [if_neg hterm, State.playCode, romRead_of_unsupported hunsup]; rfl

/-- Settles O11: `enc` and `elementsOf` are inverse to each other, four DAHs apart; the premise on bit 7
already follows from the length. -/
theorem stringsHaveOnePattern : Obligations.StringsHaveOnePattern := by
  refine ⟨fun es hpos hlen => ?_, rfl, fun c hc => (enc_elementsOf (nelem_romRead_pos hc)).symm⟩
  obtain ⟨hstart, hread⟩ := enc_spec es (by omega)
  obtain ⟨-, hzero, hones⟩ := startPos_eq_some_iff.1 hstart
  refine ⟨hones, hzero, fun j e hj he => ?_, fun hne => ⟨elementsOf_enc (by omega) hne, fun p _ hp => ?_⟩⟩
  · rw [← hread] at he
    have helem := getElem?_elementsBelow he
    rwa [Nat.sub_add_cancel hj, elem_eq_iff] at helem
  · have hnelem : nelem p = es.length := by rw [← hp, elementsOf, length_elementsBelow]
    rw [← hp, enc_elementsOf (by omega)]

/-- Settles O25: one rule for every number of elements; the word of four DAHs is the sentinel. -/
theorem patternsBeginTheirFirstElement : Obligations.PatternsBeginTheirFirstElement := by
  have begins {n : Nat} (e : BitVec n) (hwf : (patternInstr n e).wellFormed = true) (s : State)
      (hn : 1 ≤ n ∧ n ≤ 7) := exec_patternInstr_begins e s hn.1 hn.2 hwf
  exact ⟨fun e s => begins e rfl s (by decide), fun e s => begins e rfl s (by decide),
    fun e s => begins e rfl s (by decide), fun e s he => begins e (bne_iff_ne.2 he) s (by decide),
    fun e s => begins e rfl s (by decide), fun e s => begins e rfl s (by decide), fun _ => rfl⟩

/-- Settles O3: the decoders on these words. -/
theorem sampleWordsDecodeAsTheSpecWritesThem : Obligations.SampleWordsDecodeAsTheSpecWritesThem := by
  unfold Obligations.SampleWordsDecodeAsTheSpecWritesThem
  and_intros <;> rfl

/-- Settles O10: the classes by the position of the start bit, then their counts. -/
theorem patternBytesClassify : Obligations.PatternBytesClassify := by
  refine ⟨fun p => ⟨isSpace_iff p, fun hlow hhigh hspace => ?_, ?_, ?_, fun h => ?_, ?_⟩, ?_⟩
  · obtain ⟨n, hstart, hpos, hle⟩ := startPos_of_middle hlow hhigh
    rw [nelem_of_startPos hspace hstart]
    exact ⟨hpos, hle, hstart⟩
  · rintro rfl; exact ⟨rfl, rfl⟩
  · rintro rfl; exact ⟨rfl, rfl⟩
  · have hstart := (startPos_eq_seven_iff p).2 h
    exact ⟨hstart, nelem_of_startPos (by rintro rfl; simp [spacePattern] at h) hstart⟩
  · exact documented_iff p
  · and_intros <;> rfl

end Sys2Proof.Machine
end

section
/-! SUPPORT. The rows of the Code Table that no parameter touches, and what every row has in common
(40_code_table.md R62, R107 to R109). -/

namespace Sys2Proof.Machine

/-- The 38 rows of the letters, the digits, `/` and `?` (R107 (b)); `romRead_inversion` ties them to the read. -/
def fixedPatterns : List (Byte × Byte) :=
  letterPatterns ++ (digitPatterns ++ [(0x2F#8, 0xD2#8), (0x3F#8, 0x8C#8)])

/-- Each of the 38 rows is what the ROM reads at its code. -/
theorem romRead_of_fixed : ∀ r ∈ fixedPatterns, romRead r.1 = r.2 :=
  List.forall_iff_forall_mem.1 (by decide)

/-- Each of the 38 patterns has bit 7 set and 1 to 6 elements. -/
theorem fixedPatterns_spec : ∀ r ∈ fixedPatterns,
    r.2 ≠ spacePattern ∧ r.2.getLsbD 7 = true ∧ 1 ≤ nelem r.2 ∧ nelem r.2 ≤ 6 :=
  List.forall_iff_forall_mem.1 (by decide)

/-- The 38 patterns are pairwise distinct. -/
theorem fixedPatterns_nodup : (fixedPatterns.map fun r => r.2.toNat).Nodup := by
  decide

/-- The supported codes are space, the two prosigns and the 38 fixed rows. -/
theorem supportedCode_cases {c : Byte} (h : supportedCode c = true) :
    c = 0x20#8 ∨ c = 0x2A#8 ∨ c = 0x23#8 ∨ c ∈ fixedPatterns.map Prod.fst := by
  have hrows : ∀ r ∈ charRows,
      r.1 = 0x20#8 ∨ r.1 = 0x2A#8 ∨ r.1 = 0x23#8 ∨ r.1 ∈ fixedPatterns.map Prod.fst := by decide
  obtain ⟨r, hr, rfl⟩ := List.mem_map.1 (mem_codes_of_supported c h)
  exact hrows r hr

/-- Everything a read of the Code ROM can deliver, by its code (R62, R106). -/
theorem romRead_inversion (c : Byte) :
    ((c = 0x20#8 ∨ supportedCode c = false) ∧ romRead c = spacePattern)
    ∨ (c = 0x2A#8 ∧ romRead c = Config.patStar)
    ∨ (c = 0x23#8 ∧ romRead c = Config.patHash)
    ∨ (c, romRead c) ∈ fixedPatterns := by
  cases hsup : supportedCode c with
  | false => exact .inl ⟨.inr rfl, romRead_of_unsupported hsup⟩
  | true =>
    rcases supportedCode_cases hsup with rfl | rfl | rfl | hfixed
    · exact .inl ⟨.inl rfl, rfl⟩
    · exact .inr (.inl ⟨rfl, rfl⟩)
    · exact .inr (.inr (.inl ⟨rfl, rfl⟩))
    · obtain ⟨r, hr, rfl⟩ := List.mem_map.1 hfixed
      exact .inr (.inr (.inr (by rwa [romRead_of_fixed r hr])))

/-- The sentinel stands for space and for the codes outside the table, and for no other (R107 (d)). -/
theorem romRead_eq_space_iff (c : Byte) : romRead c = spacePattern ↔ c = 0x20#8 ∨ supportedCode c = false := by
  constructor
  · intro hspace
    rcases romRead_inversion c with ⟨hc, -⟩ | ⟨-, h⟩ | ⟨-, h⟩ | hr
    · exact hc
    · exact absurd (h.symm.trans hspace) (admissiblePattern_spec Config.starChoice).1
    · exact absurd (h.symm.trans hspace) (admissiblePattern_spec Config.hashChoice).1
    · exact absurd hspace (fixedPatterns_spec _ hr).1
  · rintro (rfl | hunsup)
    · rfl
    · exact romRead_of_unsupported hunsup

/-- Every other entry lies in the documented domain, the prosigns' included (R107 (c)). -/
theorem romRead_documented {c : Byte} (h : romRead c ≠ spacePattern) :
    (romRead c).getLsbD 7 = true ∧ 1 ≤ nelem (romRead c) ∧ nelem (romRead c) ≤ 6 := by
  rcases romRead_inversion c with ⟨-, hspace⟩ | ⟨-, hstar⟩ | ⟨-, hhash⟩ | hr
  · exact absurd hspace h
  · rw [hstar]; exact (admissiblePattern_spec Config.starChoice).2
  · rw [hhash]; exact (admissiblePattern_spec Config.hashChoice).2
  · exact (fixedPatterns_spec _ hr).2

/-- A supported code other than space and the prosigns has one of the 38 rows. -/
theorem mem_fixedPatterns {c : Byte} (hsup : supportedCode c = true) (hc : c ∉ [0x20#8, 0x2A#8, 0x23#8]) :
    (c, romRead c) ∈ fixedPatterns := by
  rcases romRead_inversion c with ⟨rfl | hunsup, -⟩ | ⟨rfl, -⟩ | ⟨rfl, -⟩ | hr
  · simp at hc
  · simp [hunsup] at hsup
  · simp at hc
  · simp at hc
  · exact hr

/-- Each of the 125 values that R108 and R109 admit for a prosign lies in the second row of R52. -/
theorem admissiblePattern_documented (i : Fin 125) :
    Config.admissiblePattern i ≠ 0xEF#8 ∧ (Config.admissiblePattern i).getLsbD 7 = true
      ∧ 1 ≤ nelem (Config.admissiblePattern i) ∧ nelem (Config.admissiblePattern i) ≤ 6
      ∧ 0x80 ≤ (Config.admissiblePattern i).toNat ∧ (Config.admissiblePattern i).toNat ≤ 0xFD := by
  obtain ⟨hne, hbit, hpos, hle⟩ := admissiblePattern_spec i
  exact ⟨hne, hbit, hpos, hle, (documented_iff _).1 (by simp [documented, hbit, hpos])⟩

end Sys2Proof.Machine
end

section
/-! SUPPORT. The effect of a character by its entry: a sentinel waits, any other entry begins with its first
element, and either way the pattern instruction of the entry does the same (40_code_table.md R64). -/

namespace Sys2Proof.Machine

/-- Any pattern byte plays itself (log 10). -/
theorem exec_decodePat (p : Byte) (s : State) : exec (decodePat p) s = .next (s.playPattern p) := by
  by_cases hspace : p = spacePattern
  · subst hspace; rfl
  cases hstart : startPos p with
  | none =>
    obtain rfl := (startPos_eq_none_iff p).1 hstart
    rfl
  | some n =>
    have hn : n ≤ 7 := Nat.lt_succ_iff.1 (startPos_eq_some_iff.1 hstart).1
    obtain ⟨-, -, hword⟩ := decodePat_spec p
    rw [decodePat_of_startPos hspace hstart] at hword ⊢
    rw [exec_patternInstr _ s hn, hword]

/-- `BeginChar` reads the mode only where it is done at once, so not for a space or a pattern with elements. -/
theorem beginChar_mode_irrelevant (s : State) {p : Byte} (m m' : Mode) (u : Duration) (now : Tick)
    (h : p ≠ spacePattern → 1 ≤ nelem p) : s.beginChar p m u now = s.beginChar p m' u now := by
  by_cases hspace : p = spacePattern
  · rw [beginChar_space s m u now hspace, beginChar_space s m' u now hspace]
  · rw [beginChar_element s m u now hspace (h hspace), beginChar_element s m' u now hspace (h hspace)]

/-- A character is its pattern in a state with `msg_ptr` advanced, whatever call that state is in. -/
theorem playCode_eq_playPattern (s : State) (c : Byte) :
    s.playCode c = State.playPattern { s with msgPtr := s.msgPtr + 1 } (romRead c) :=
  beginChar_mode_irrelevant _ _ _ _ _ nelem_romRead_pos

/-- The sentinel fetched at `msg_ptr` waits four units in silence (R101, R120). -/
theorem playSymbol_space (s : State) : s.playSymbol spacePattern s.msgPtr s.unit s.ports.now =
    { s with msgPtr := s.msgPtr + 1, pattern := 0xEF#8, deadline := dl s.ports.now 4 s.unit, ctl := .spaceWait } :=
  beginChar_space _ _ _ _ rfl

/-- Any other entry keys its first element (R121, R122, R133). -/
theorem playCode_begun (s : State) {c : Byte} (h : romRead c ≠ spacePattern) :
    s.playCode c = begun s (romRead c) (BitVec.ofNat 3 (nelem (romRead c) - 1))
      (elem (romRead c) (nelem (romRead c) - 1)) := by
  rw [State.playCode, State.playSymbol, beginChar_element _ _ _ _ h (nelem_romRead_pos h)]
  cases hfirst : elem (romRead c) (nelem (romRead c) - 1) with
  | dit => exact startElem_of_dit _ _ _ hfirst
  | dah => exact startElem_of_dah _ _ _ hfirst

/-- The instruction of a row of the Code Table begins the pattern found there, unless that is the sentinel. -/
theorem exec_begun {i : Instr} (hrow : (encode i, i) ∈ charRows) (h : romRead (encode i) ≠ spacePattern) (s : State) :
    exec i s = .next (begun s (romRead (encode i)) (BitVec.ofNat 3 (nelem (romRead (encode i)) - 1))
      (elem (romRead (encode i)) (nelem (romRead (encode i)) - 1))) := by
  rw [← playCode_begun s h]
  exact exec_charRow s _ hrow

end Sys2Proof.Machine
end

section
/-! The obligations of 40_code_table.md. -/

namespace Sys2Proof.Machine

/-- Settles O5: an unsupported code has no row in the decoder and none in the ROM; the effect of FALLBACK is
that of the sentinel, which is also the entry of space. -/
theorem unsupportedCodesPlayAsSpace : Obligations.UnsupportedCodesPlayAsSpace := by
  refine ⟨rfl, fun c hunsup => romRead_of_unsupported hunsup, fun c hunsup hterm => ?_, fun c s => rfl, ?_⟩
  · exact decodeChar_fallback (by simp [Instr.wellFormed, msgTerm, hunsup, hterm])
  · intro c hc
    have hcode : c = 0x20#8 ∨ supportedCode c = false := by revert c; decide
    exact (romRead_eq_space_iff c).2 hcode

/-- Settles O7: the 38 fixed rows hold distinct patterns; the rest by the cases of a read. -/
theorem codeTableIsInTheDocumentedDomain : Obligations.CodeTableIsInTheDocumentedDomain := by
  refine ⟨rfl, fun c d hc hd hcFixed hdFixed heq => ?_, fun c => romRead_documented, romRead_eq_space_iff⟩
  have hrows := List.inj_on_of_nodup_map fixedPatterns_nodup
    (mem_fixedPatterns hc hcFixed) (mem_fixedPatterns hd hdFixed) (congrArg BitVec.toNat heq)
  exact congrArg Prod.fst hrows

/-- Settles O19: both formats begin the entry, and only a pattern without elements would tell the modes apart. -/
theorem charactersRunTheirPatterns : Obligations.CharactersRunTheirPatterns := by
  intro c s (hterm : c ≠ msgTerm)
  rw [exec_decodeChar, if_neg hterm, exec_decodePat, playCode_eq_playPattern]

/-- Settles O24: the rule for every row, the parameters being admissible. -/
theorem prosignsBeginTheirParameterPatterns : Obligations.ProsignsBeginTheirParameterPatterns := fun s =>
  ⟨exec_begun (i := .star) (by decide) (admissiblePattern_spec Config.starChoice).1 s,
    exec_begun (i := .hash) (by decide) (admissiblePattern_spec Config.hashChoice).1 s⟩

/-- Settles O6: the entries encode their strings row by row; that they read back is then `elementsOf_enc`. -/
theorem codeTableSpellsTheMorseStrings : Obligations.CodeTableSpellsTheMorseStrings := by
  intro r hr
  obtain ⟨hrom, henc, hlen, hne⟩ : romRead r.1 = r.2.1 ∧ enc r.2.2 = r.2.1 ∧ r.2.2.length ≤ 7
      ∧ r.2.2 ≠ [.dah, .dah, .dah, .dah] := by revert r; decide
  exact ⟨hrom, henc, by rw [← henc, elementsOf_enc hlen hne]⟩

/-- Settles O8: `PAT_STAR` is one of the 125 values. -/
theorem starPatternIsAdmissible : Obligations.StarPatternIsAdmissible :=
  admissiblePattern_documented Config.starChoice

/-- Settles O9: `PAT_HASH` is one of the 125 values. -/
theorem hashPatternIsAdmissible : Obligations.HashPatternIsAdmissible :=
  admissiblePattern_documented Config.hashChoice

/-- Settles O21: the rule for every row, at the 26 letters. -/
theorem lettersBeginTheirPatterns : Obligations.LettersBeginTheirPatterns := by
  unfold Obligations.LettersBeginTheirPatterns
  and_intros <;> exact exec_begun (by decide) (by decide)

/-- Settles O22: the rule for every row, at the ten digits. -/
theorem digitsBeginTheirPatterns : Obligations.DigitsBeginTheirPatterns := by
  unfold Obligations.DigitsBeginTheirPatterns
  and_intros <;> exact exec_begun (by decide) (by decide)

/-- Settles O23: space and FALLBACK by the rule for the sentinel, `/` and `?` by the rule for every other row. -/
theorem spaceAndPunctuationBegin : Obligations.SpaceAndPunctuationBegin :=
  ⟨fun s => congrArg Host.Outcome.next (playSymbol_space s),
    fun _ s => congrArg Host.Outcome.next (playSymbol_space s),
    exec_begun (i := .slash) (by decide) (by decide), exec_begun (i := .question) (by decide) (by decide),
    fun _ => rfl⟩

end Sys2Proof.Machine
end

section
/-! SUPPORT. The decoder port bit by bit, and the element list as a list of bits
(41_pattern_decoder.md R111, R114, R116). -/

namespace Sys2Proof.Machine

/-- The elements are those at the positions 0 to `n - 1`, read backwards. -/
theorem elementsBelow_eq_reverse (p : Byte) (n : Nat) :
    elementsBelow p n = ((List.range n).map (elem p)).reverse := by
  induction n with
  | zero => rfl
  | succ n ih => simp [elementsBelow, ih, List.range_succ]

/-- A byte whose bit 7 is the start bit has seven elements, one more than the documented domain holds (R52). -/
theorem nelem_of_lt {p : Byte} (h : p.toNat < 0x80) : nelem p = 7 := by
  obtain ⟨-, -, -, -, hlow, -⟩ := patternBytesClassify.1 p
  exact (hlow h).2

/-- Three bits hold every element count. -/
@[simp] theorem toNat_decLen (s : State) : (decLen s).toNat = nelem s.ports.decPat := by
  have := nelem_le s.ports.decPat
  simp only [decLen, BitVec.toNat_ofNat]
  omega

/-- The mask of `DEC_ELEMS` keeps the bits below the start bit and clears the others. -/
@[simp] theorem getLsbD_decElems (s : State) (i : Nat) :
    (decElems s).getLsbD i = (decide (i < nelem s.ports.decPat) && s.ports.decPat.getLsbD i) := by
  have hle := nelem_le s.ports.decPat
  rw [decElems, BitVec.getLsbD_and, BitVec.getLsbD_setWidth, BitVec.getLsbD_ofNat, Nat.testBit_two_pow_sub_one]
  by_cases hi : i < nelem s.ports.decPat
  · have h7 : i < 7 := by omega
    simp [hi, h7]
  · simp [hi]

/-- Below the length, the port's bits are the elements of the pattern (R114). -/
theorem elem_decPat {s : State} {i : Nat} (hi : i < nelem s.ports.decPat) :
    elem s.ports.decPat i = if (decElems s).getLsbD i = false then Element.dit else Element.dah := by
  simp [elem, hi]

/-- With the start bit in bit 7 the port shows the seven bits below it. -/
theorem decElems_of_lt {s : State} (h : s.ports.decPat.toNat < 0x80) :
    decElems s = s.ports.decPat.setWidth 7 := by
  refine BitVec.eq_of_getLsbD_eq fun i hi => ?_
  rw [getLsbD_decElems, nelem_of_lt h, BitVec.getLsbD_setWidth]

end Sys2Proof.Machine
end

section
/-! The obligations of 41_pattern_decoder.md. -/

namespace Sys2Proof.Machine

/-- Settles O12: the port bit by bit gives the clauses for every byte; the classes and the worked examples
are then the port's value at one byte each. -/
theorem decoderPortShowsThePattern : Obligations.DecoderPortShowsThePattern := by
  intro s
  refine ⟨?space, ?noStart, toNat_decLen s, ?elems, ?elements, ?pFE, ?low, ?pFF, ?pF0, ?pED, ?pEF, ?p8C⟩
  case space | noStart => rfl
  case elems =>
    intro i _
    rw [getLsbD_decElems, toNat_decLen]
  case elements =>
    rw [elementsOf, elementsBelow_eq_reverse, toNat_decLen]
    exact congrArg List.reverse (List.map_congr_left fun i hi => elem_decPat (List.mem_range.1 hi))
  case low => exact fun h => ⟨BitVec.eq_of_toNat_eq (by rw [toNat_decLen, nelem_of_lt h]; rfl), decElems_of_lt h⟩
  case pFE | pFF | pF0 | pED | pEF | p8C =>
    intro h
    simp only [decSpace, decNoStart, decLen, decElems, h]
    decide

end Sys2Proof.Machine
end

section
/-! SUPPORT. The deadline arithmetic (42_element_player.md R117): exact below 2^32, and the `NOW` of the edge
that writes it where the unit is 0 (R131). -/

namespace Sys2Proof.Machine

theorem toNat_dl (now : Tick) (n : Nat) (u : Duration) :
    (dl now n u).toNat = (now.toNat + n * u.toNat) % 2 ^ 32 := by
  simp [dl, BitVec.toNat_add, BitVec.toNat_ofNat]

/-- A deadline that does not wrap is the sum itself. -/
theorem toNat_dl_of_lt {now : Tick} {n : Nat} {u : Duration} (h : now.toNat + n * u.toNat < 2 ^ 32) :
    (dl now n u).toNat = now.toNat + n * u.toNat := by
  rw [toNat_dl, Nat.mod_eq_of_lt h]

@[simp] theorem dl_zero_unit (now : Tick) (n : Nat) : dl now n 0#16 = now := by simp [dl]

end Sys2Proof.Machine
end

section
/-! SUPPORT. `FinishChar` by the mode that its call passes (42_element_player.md R125). -/

namespace Sys2Proof.Machine

theorem finishChar_of_char (s : State) {m : Mode} (u : Duration) (now : Tick) (h : m = .char) :
    s.finishChar m u now = { s with ctl := .idle } := by
  subst h; rfl

theorem finishChar_of_msg (s : State) {m : Mode} (u : Duration) (now : Tick) (h : m = .msg) :
    s.finishChar m u now = { s with deadline := dl now 2 u, ctl := .charGap } := by
  subst h; rfl

end Sys2Proof.Machine
end

section
/-! SUPPORT. With unit 0 a procedure that leaves the machine waiting has written the `NOW` of its edge into
the deadline (42_element_player.md R131). -/

namespace Sys2Proof.Machine

/-- `r`, reached from `s` inside an edge at `now`: its deadline is `now`, or it is idle with the deadline of `s`. -/
def NowOrIdle (now : Tick) (s r : State) : Prop := r.deadline = now ∨ (r.deadline = s.deadline ∧ r.ctl = .idle)

variable (s : State) (p : Byte) (m : Mode) (i : Nat) (a : Addr) (now : Tick)

theorem nowOrIdle_finishChar : NowOrIdle now s (s.finishChar m 0 now) := by
  cases m with
  | char => exact .inr ⟨rfl, rfl⟩
  | msg => exact .inl (dl_zero_unit now 2)

theorem nowOrIdle_startElem : NowOrIdle now s (s.startElem p i 0 now) := by
  rcases startElem_inversion s p i 0 now with ⟨-, h⟩ | ⟨-, h⟩ <;> rw [h]
  · exact .inl (dl_zero_unit now 1)
  · exact .inl (dl_zero_unit now 3)

theorem nowOrIdle_beginChar : NowOrIdle now s (s.beginChar p m 0 now) := by
  by_cases hspace : p = 0xEF#8
  · rw [beginChar_space s m 0 now hspace]; exact .inl (dl_zero_unit now 4)
  by_cases hempty : nelem p = 0
  · rw [beginChar_empty s m 0 now hspace hempty]; exact nowOrIdle_finishChar _ m now
  · rw [beginChar_element s m 0 now hspace (Nat.pos_of_ne_zero hempty)]; exact nowOrIdle_startElem _ p _ now

theorem nowOrIdle_fetch : NowOrIdle now s (s.fetch a 0 now) := by
  by_cases hterm : memRead s.mem a.toNat = 0x00#8
  · rw [fetch_of_term s 0 now hterm]; exact .inr ⟨rfl, rfl⟩
  · rw [fetch_of_char s 0 now hterm]; exact nowOrIdle_beginChar _ _ .msg now

theorem nowOrIdle_gapExpiry (hunit : s.unit = 0) : NowOrIdle s.ports.now s s.gapExpiry := by
  by_cases hlast : s.idx = 0
  · rw [gapExpiry_of_last hlast, hunit]; exact nowOrIdle_finishChar s _ _
  · rw [gapExpiry_of_more hlast, hunit]; exact nowOrIdle_startElem _ _ _ _

variable {s} {r : State}

/-- An edge with unit 0 in force changes no register, or what it leaves waiting waits for its own `NOW`. -/
theorem EdgeCase.nowOrIdle_of_zero_unit (he : EdgeCase s r) (hrst : s.ports.rst = false)
    (hidle : s.ctl = .idle → s.ports.unitIn = 0) (hbusy : s.ctl ≠ .idle → s.unit = 0) :
    r = s ∨ NowOrIdle s.ports.now s r := by
  cases he with
  | reset h => simp [hrst] at h
  | noCommand _ _ _ | wait _ _ _ => exact .inl rfl
  | play _ hctl _ => rw [hidle hctl]; exact .inr (nowOrIdle_beginChar s.latchPlay _ _ _)
  | send _ hctl _ => rw [hidle hctl]; exact .inr (nowOrIdle_fetch s.latchSend _ _)
  | elementEnd _ hctl _ =>
    have hunit : s.unit = 0 := hbusy (by rcases hctl with h | h <;> simp [h])
    exact .inr (.inl (by simp [State.elementExpiry, hunit]))
  | interElementEnd _ hctl _ => exact .inr (nowOrIdle_gapExpiry s (hbusy (by simp [hctl])))
  | spaceEnd _ hctl _ =>
    rw [State.spaceExpiry, hbusy (by simp [hctl])]
    exact .inr (nowOrIdle_finishChar s _ _)
  | charGapEnd _ hctl _ => rw [hbusy (by simp [hctl])]; exact .inr (nowOrIdle_fetch s _ _)

end Sys2Proof.Machine
end

section
/-! SUPPORT. Runs of edges: every run answers a next state, and a run before the deadline changes no register
(42_element_player.md R118, R129). -/

namespace Sys2Proof.Machine

theorem SameRegisters.trans {r s t : State} (h : SameRegisters r s) (h' : SameRegisters s t) : SameRegisters r t := by
  obtain ⟨hctl, hmode, hpat, hidx, hunit, hdeadline, hptr, htone⟩ := h
  exact ⟨hctl.trans h'.ctl, hmode.trans h'.mode, hpat.trans h'.pattern, hidx.trans h'.idx, hunit.trans h'.unit,
    hdeadline.trans h'.deadline, hptr.trans h'.msgPtr, htone.trans h'.tone⟩

/-- A run is its first edge's case and then the rest. -/
theorem EdgeCase.run_succ {s r : State} (he : EdgeCase s r) (n : Nat) :
    Sys2Proof.core.run (n + 1) s = Sys2Proof.core.run n r.nextCycle :=
  run_succ_of_next he.step_eq

/-- No run faults or is refused (R150). -/
theorem run_answers (n : Nat) (s : State) : ∃ t, Sys2Proof.core.run n s = .next t := by
  induction n generalizing s with
  | zero => exact ⟨s, rfl⟩
  | succ n ih =>
    obtain ⟨r, he⟩ := edgeCase_exists s
    rw [he.run_succ]
    exact ih r.nextCycle

theorem run_before_deadline (n : Nat) (s : State) (hctl : s.ctl ≠ .idle)
    (hwait : ∀ k, k < n → (s.cycleAt k).ports.rst = false ∧ s.nowAt k < s.deadline.toNat) :
    ∃ t, Sys2Proof.core.run n s = .next t ∧ SameRegisters s t := by
  induction n generalizing s with
  | zero => exact ⟨s, rfl, by constructor <;> rfl⟩
  | succ n ih =>
    obtain ⟨hrst, hnow⟩ := hwait 0 (Nat.succ_pos n)
    have hrest : ∀ k, k < n →
        (s.nextCycle.cycleAt k).ports.rst = false ∧ s.nextCycle.nowAt k < s.nextCycle.deadline.toNat :=
      fun k hk => (nextCycle_deadline s).symm ▸ hwait (k + 1) (Nat.succ_lt_succ hk)
    obtain ⟨t, hrun, hsame⟩ := ih s.nextCycle (by simpa using hctl) hrest
    have hedge : EdgeCase s s := .wait hrst hctl hnow
    exact ⟨t, (hedge.run_succ n).trans hrun, (nextCycle_registers s).trans hsame⟩

end Sys2Proof.Machine
end

section
/-! SUPPORT. The environment's coming cycles after an edge, and the premises of 70_reset_and_hazards.md R175
over them. -/

namespace Sys2Proof.Machine

variable {s s' r : State} {m k : Nat}

theorem SameEnvironment.cycleAt (h : SameEnvironment s s') (k : Nat) :
    SameEnvironment (s.cycleAt k) (s'.cycleAt k) := by
  induction k generalizing s s' with
  | zero => exact h
  | succ k ih => exact ih h.nextCycle

/-- The edges after an edge see the environment that was to come. -/
theorem EdgeCase.cycleAt_nextCycle (he : EdgeCase s r) (k : Nat) :
    SameEnvironment (s.cycleAt (k + 1)) (r.nextCycle.cycleAt k) :=
  he.sameEnvironment.nextCycle.cycleAt k

theorem EdgeCase.nowAt_nextCycle (he : EdgeCase s r) (k : Nat) : r.nextCycle.nowAt k = s.nowAt (k + 1) := by
  rw [State.nowAt, ← (he.cycleAt_nextCycle k).ports]; rfl

theorem Steady.nextCycle (h : Steady s (m + 1)) (he : EdgeCase s r) : Steady r.nextCycle m := by
  intro k hk
  obtain ⟨hrst, hnow⟩ := h (k + 1) (by omega)
  refine ⟨(he.cycleAt_nextCycle k).ports ▸ hrst, fun hk0 => ?_⟩
  obtain ⟨j, rfl⟩ := Nat.exists_eq_succ_of_ne_zero hk0
  simpa [he.nowAt_nextCycle] using hnow

/-- `NOW` does not fall. -/
theorem Steady.nowAt_zero_le (h : Steady s m) (hk : k < m) : s.nowAt 0 ≤ s.nowAt k := by
  induction k with
  | zero => exact le_rfl
  | succ k ih =>
    have hprev : s.nowAt 0 ≤ s.nowAt k := ih (by omega)
    obtain ⟨-, hnow⟩ := h (k + 1) hk
    rcases hnow (Nat.succ_ne_zero k) with h | h <;> rw [Nat.add_sub_cancel] at h <;> omega

end Sys2Proof.Machine
end

section
/-! SUPPORT. Why a machine whose registers time one interval after another follows their timeline
(42_element_player.md R128, R129, 70_reset_and_hazards.md R175). `holds` is what the call is promised of the
message memory at the edges ahead; a PLAY asks nothing of it. -/

namespace Sys2Proof.Machine

/-- The registers `r`, left by an edge at `NOW = a` or held since, time the intervals: they wait for the end of
the first with its level on the tone, and the edge that samples that end leaves registers that time the rest.
After the last the machine is idle and silent. -/
def Times (holds : Memory → Prop) (u : Nat) : List Interval → Nat → State → Prop
  | [], _, r => r.ctl = .idle ∧ r.tone = false
  | i :: is, a, r => (r.ctl ≠ .idle ∧ r.tone = i.on ∧ 1 ≤ i.units ∧ r.deadline.toNat = a + i.units * u)
      ∧ ∀ s, SameRegisters r s → s.ports.rst = false → holds s.mem → s.ports.now.toNat = a + i.units * u →
          ∃ r', EdgeCase s r' ∧ Times holds u is (a + i.units * u) r'

/-- `x` lies in the first of the intervals that begin at `a`, or is their end where there is none. -/
def InFirst (u : Nat) : List Interval → Nat → Nat → Prop
  | [], a, x => x = a
  | i :: _, a, x => a ≤ x ∧ x < a + i.units * u

/-- What `FollowsTimeline` says of the edge `k` edges from now, of intervals that begin at `a`. -/
def FollowsAt (s : State) (k : Nat) (is : List Interval) (a u : Nat) : Prop :=
  ∃ t : State, Sys2Proof.core.run (k + 1) s = .next t
    ∧ (s.nowAt k < a + unitsOf is * u → toneOn t = toneAt is u (s.nowAt k - a) ∧ busy t = true)
    ∧ (s.nowAt k = a + unitsOf is * u → (∀ j, j < k → s.nowAt j < a + unitsOf is * u) →
        toneOn t = false ∧ busy t = false)

variable {holds : Memory → Prop} {u a x k m : Nat} {i : Interval} {is : List Interval} {s r t : State}

theorem followsTimeline_iff : FollowsTimeline s m is u ↔ ∀ k, k < m → FollowsAt s k is (s.nowAt 0) u := Iff.rfl

/-- `Times` speaks of registers only. -/
theorem Times.of_sameRegisters (h : Times holds u is a r) (hsame : SameRegisters r t) : Times holds u is a t := by
  cases is with
  | nil => exact ⟨hsame.ctl ▸ h.1, hsame.tone ▸ h.2⟩
  | cons i is =>
    obtain ⟨⟨hctl, htone, hpos, hdeadline⟩, hend⟩ := h
    exact ⟨⟨hsame.ctl ▸ hctl, hsame.tone ▸ htone, hpos, hsame.deadline ▸ hdeadline⟩,
      fun s hs => hend s (hsame.trans hs)⟩

/-- Where intervals begin, their first has begun: it lasts at least one tick. -/
theorem Times.inFirst (h : Times holds u is a r) (hu : 1 ≤ u) : InFirst u is a a := by
  cases is with
  | nil => rfl
  | cons i is =>
    obtain ⟨⟨-, -, hpos, -⟩, -⟩ := h
    exact ⟨le_rfl, Nat.lt_add_of_pos_right (Nat.mul_pos hpos hu)⟩

/-- The end of the intervals is that of their rest. -/
theorem add_unitsOf_cons (a u : Nat) (i : Interval) (is : List Interval) :
    a + unitsOf (i :: is) * u = a + i.units * u + unitsOf is * u := by
  rw [unitsOf_cons, Nat.add_mul, Nat.add_assoc]

/-- The outputs after an edge whose `NOW` lies in the first interval. -/
theorem Times.followsAt_zero (h : Times holds u is a r) (he : EdgeCase s r) (hx : InFirst u is a (s.nowAt 0)) :
    FollowsAt s 0 is a u := by
  refine ⟨r.nextCycle, (he.run_succ 0).trans rfl, ?_⟩
  cases is with
  | nil =>
    obtain rfl : s.nowAt 0 = a := hx
    obtain ⟨hctl, htone⟩ := h
    simp [toneOn, busy, hctl, htone]
  | cons i is =>
    obtain ⟨⟨hctl, htone, -, -⟩, -⟩ := h
    obtain ⟨hle, hlt⟩ := hx
    have hin : s.nowAt 0 - a < i.units * u := by omega
    rw [add_unitsOf_cons]
    exact ⟨fun _ => by simp [toneOn, busy, hctl, htone, toneAt_within hin], fun hend => by omega⟩

/-- What an edge's successor follows from the next edge on, the edge follows one edge later. -/
theorem EdgeCase.followsAt_succ (he : EdgeCase s r) (h : FollowsAt r.nextCycle k is a u) :
    FollowsAt s (k + 1) is a u := by
  obtain ⟨t, hrun, hbefore, hend⟩ := h
  simp only [he.nowAt_nextCycle] at hbefore hend
  exact ⟨t, (he.run_succ (k + 1)).trans hrun, hbefore,
    fun hnow hfirst => hend hnow fun j hj => hfirst (j + 1) (Nat.succ_lt_succ hj)⟩

/-- Past the first interval the timeline is that of the rest. -/
theorem FollowsAt.cons (h : FollowsAt s k is (a + i.units * u) u) (hpast : a + i.units * u ≤ s.nowAt k) :
    FollowsAt s k (i :: is) a u := by
  have htone : toneAt (i :: is) u (s.nowAt k - a) = toneAt is u (s.nowAt k - (a + i.units * u)) := by
    rw [toneAt_beyond (by omega), Nat.sub_sub]
  unfold FollowsAt
  rw [add_unitsOf_cons, htone]
  exact h

/-- After the end the timeline says nothing but that the machine answers. -/
theorem followsAt_of_past (hfirst : s.nowAt 0 = a) (hnow : a ≤ s.nowAt (k + 1)) : FollowsAt s (k + 1) [] a u := by
  obtain ⟨t, hrun⟩ := run_answers (k + 2) s
  unfold FollowsAt
  simp only [unitsOf_nil, Nat.zero_mul, Nat.add_zero]
  exact ⟨t, hrun, fun hlt => absurd hnow (Nat.not_le.2 hlt),
    fun _ hlt => absurd (hlt 0 (Nat.succ_pos k)) (Nat.not_lt.2 hfirst.ge)⟩

/-- The next edge, at which `NOW` stands still or is one more, lies in the first interval still or is its end. -/
theorem Times.next_edge (h : Times holds u (i :: is) a r) (hx : InFirst u (i :: is) a x) (hsame : SameRegisters r s)
    (hrst : s.ports.rst = false) (hmem : holds s.mem) (hnow : s.nowAt 0 = x ∨ s.nowAt 0 = x + 1) :
    (EdgeCase s s ∧ InFirst u (i :: is) a (s.nowAt 0))
    ∨ (s.nowAt 0 = a + i.units * u ∧ ∃ r', EdgeCase s r' ∧ Times holds u is (a + i.units * u) r') := by
  obtain ⟨⟨hctl, -, -, hdeadline⟩, hend⟩ := h
  obtain ⟨hle, hlt⟩ := hx
  rcases Nat.lt_or_ge (s.nowAt 0) (a + i.units * u) with hbefore | hat
  · refine .inl ⟨.wait hrst (hsame.ctl ▸ hctl) ?_, by omega, hbefore⟩
    rwa [← hsame.deadline, hdeadline]
  · have heq : s.nowAt 0 = a + i.units * u := by omega
    exact .inr ⟨heq, hend s hsame hrst hmem heq⟩

/-- From an edge whose `NOW` lies in the first interval, every later edge follows the timeline. -/
theorem Times.followsAt (hu : 1 ≤ u) : ∀ {is : List Interval} {a k : Nat} {s r : State},
    EdgeCase s r → Times holds u is a r → InFirst u is a (s.nowAt 0) → Steady s (k + 1) →
    (∀ j, j < k + 1 → holds (s.cycleAt j).mem) → FollowsAt s k is a u
  | is, a, 0, s, r, he, h, hx, _, _ => h.followsAt_zero he hx
  | [], a, k + 1, s, r, he, h, hx, hsteady, _ =>
    followsAt_of_past hx (le_of_eq_of_le (Eq.symm hx) (hsteady.nowAt_zero_le (Nat.lt_succ_self _)))
  | i :: is, a, k + 1, s, r, he, h, hx, hsteady, hmem => by
    have hsteady' := hsteady.nextCycle he
    have hmem' : ∀ j, j < k + 1 → holds (r.nextCycle.cycleAt j).mem := fun j hj =>
      (he.cycleAt_nextCycle j).mem ▸ hmem (j + 1) (Nat.succ_lt_succ hj)
    have hnow : r.nextCycle.nowAt 0 = s.nowAt 0 ∨ r.nextCycle.nowAt 0 = s.nowAt 0 + 1 :=
      he.nowAt_nextCycle 0 ▸ (hsteady 1 (by omega)).2 Nat.one_ne_zero
    refine he.followsAt_succ ?_
    rcases h.next_edge hx (nextCycle_registers r) (hsteady' 0 (by omega)).1 (hmem' 0 (by omega)) hnow with
      ⟨he', hx'⟩ | ⟨hend, r', he', h'⟩
    · exact Times.followsAt hu he' (h.of_sameRegisters (nextCycle_registers r)) hx' hsteady' hmem'
    · refine FollowsAt.cons ?_ (hend ▸ hsteady'.nowAt_zero_le (Nat.lt_succ_self k))
      exact Times.followsAt hu he' h' (hend ▸ h'.inFirst hu) hsteady' hmem'

/-- An edge that leaves registers that time the intervals begins their timeline. -/
theorem Times.followsTimeline (h : Times holds u is (s.nowAt 0) r) (hu : 1 ≤ u) (he : EdgeCase s r)
    (hsteady : Steady s m) (hmem : ∀ j, j < m → holds (s.cycleAt j).mem) : FollowsTimeline s m is u :=
  followsTimeline_iff.2 fun _ hk => Times.followsAt hu he h (h.inFirst hu)
    (fun j hj => hsteady j (lt_of_lt_of_le hj hk)) (fun j hj => hmem j (lt_of_lt_of_le hj hk))

end Sys2Proof.Machine
end

section
/-! SUPPORT. The Element Player times the intervals of a character, then whatever its end begins
(42_element_player.md R120 to R126, R128, R130). -/

namespace Sys2Proof.Machine

/-- The registers of a call that a character does not write: its mode and unit, and `msg_ptr`. -/
structure InCall (m : Mode) (u : Duration) (q : Addr) (s : State) : Prop where
  mode : s.mode = m
  unit : s.unit = u
  msgPtr : s.msgPtr = q

/-- In the call, the end of a character in silence begins `rest`, while its deadlines do not wrap. -/
def DoneTimes (holds : Memory → Prop) (m : Mode) (u : Duration) (q : Addr) (rest : List Interval) : Prop :=
  ∀ (s : State) (now : Tick), InCall m u q s → s.tone = false → now.toNat + unitsOf rest * u.toNat < 2 ^ 32 →
    Times holds u.toNat rest now.toNat (s.finishChar m u now)

/-- The end of a PLAY's character ends the call. -/
theorem doneTimes_char (holds : Memory → Prop) (u : Duration) (q : Addr) : DoneTimes holds .char u q [] :=
  fun _ _ _ htone _ => ⟨rfl, htone⟩

variable {holds : Memory → Prop} {m : Mode} {u : Duration} {q : Addr} {i : Interval} {is rest : List Interval}
  {s r : State} {p : Byte} {now : Tick}

theorem InCall.of_sameRegisters (h : InCall m u q r) (hsame : SameRegisters r s) : InCall m u q s :=
  ⟨hsame.mode ▸ h.mode, hsame.unit ▸ h.unit, hsame.msgPtr ▸ h.msgPtr⟩

/-- Registers that wait for the end of the first interval, where the edge at that end times the rest. -/
theorem times_cons (hctl : r.ctl ≠ .idle) (htone : r.tone = i.on) (hpos : 1 ≤ i.units)
    (hdeadline : r.deadline = dl now i.units u) (hwrap : now.toNat + unitsOf (i :: is) * u.toNat < 2 ^ 32)
    (hend : ∀ s, SameRegisters r s → s.ports.rst = false → holds s.mem → s.deadline.toNat ≤ s.ports.now.toNat →
      s.ports.now.toNat + unitsOf is * u.toNat < 2 ^ 32 →
      ∃ r', EdgeCase s r' ∧ Times holds u.toNat is s.ports.now.toNat r') :
    Times holds u.toNat (i :: is) now.toNat r := by
  rw [add_unitsOf_cons] at hwrap
  have hsum : r.deadline.toNat = now.toNat + i.units * u.toNat := by rw [hdeadline, toNat_dl_of_lt (by omega)]
  refine ⟨⟨hctl, htone, hpos, hsum⟩, fun s hsame hrst hmem hnow => ?_⟩
  rw [← hnow] at hwrap ⊢
  exact hend s hsame hrst hmem (by rw [← hsame.deadline, hsum, hnow]) hwrap

/-- `StartElem` keys the tone for the units of the element. -/
theorem startElem_keys (s : State) (p : Byte) (n : Nat) (u : Duration) (now : Tick) :
    ((s.startElem p n u now).ctl = .sendDit ∨ (s.startElem p n u now).ctl = .sendDah)
      ∧ (s.startElem p n u now).tone = true ∧ (s.startElem p n u now).deadline = dl now (elem p n).units u := by
  cases he : elem p n with
  | dit => rw [startElem_of_dit s u now he]; exact ⟨.inl rfl, rfl, rfl⟩
  | dah => rw [startElem_of_dah s u now he]; exact ⟨.inr rfl, rfl, rfl⟩

theorem Element.units_pos (e : Element) : 1 ≤ e.units := by cases e <;> decide

/-- What the end of an element's silence does times `is`, where `idx` is still the element's (R124). -/
def GapTimes (holds : Memory → Prop) (m : Mode) (u : Duration) (q : Addr) (p : Byte) (j : BitVec 3)
    (is : List Interval) : Prop :=
  ∀ t : State, InCall m u q t → t.tone = false → t.pattern = p → t.idx = j →
    t.ports.now.toNat + unitsOf is * u.toNat < 2 ^ 32 → Times holds u.toNat is t.ports.now.toNat t.gapExpiry

/-- The end of an element's tone begins its silence (R123). -/
theorem times_elementExpiry (hgap : GapTimes holds m u q s.pattern s.idx is) (hcall : InCall m u q s)
    (hwrap : s.ports.now.toNat + unitsOf (⟨false, 1⟩ :: is) * u.toNat < 2 ^ 32) :
    Times holds u.toNat (⟨false, 1⟩ :: is) s.ports.now.toNat s.elementExpiry := by
  have hcall' : InCall m u q s.elementExpiry := ⟨hcall.mode, hcall.unit, hcall.msgPtr⟩
  refine times_cons (by simp [State.elementExpiry]) rfl le_rfl (congrArg (dl _ 1) hcall.unit) hwrap
    fun t hsame hrst _ hnow hwrap' => ⟨_, .interElementEnd hrst hsame.ctl.symm hnow, ?_⟩
  exact hgap t (hcall'.of_sameRegisters hsame) hsame.tone.symm hsame.pattern.symm hsame.idx.symm hwrap'

/-- `StartElem` times its element and the silence after it (R122, R128). -/
theorem times_startElem {n : Nat} (hgap : GapTimes holds m u q s.pattern s.idx is) (hcall : InCall m u q s)
    (hwrap : now.toNat + unitsOf (⟨true, (elem p n).units⟩ :: ⟨false, 1⟩ :: is) * u.toNat < 2 ^ 32) :
    Times holds u.toNat (⟨true, (elem p n).units⟩ :: ⟨false, 1⟩ :: is) now.toNat (s.startElem p n u now) := by
  obtain ⟨hctl, htone, hdeadline⟩ := startElem_keys s p n u now
  have hbusy : (s.startElem p n u now).ctl ≠ .idle := by rcases hctl with h | h <;> simp [h]
  have hcall' : InCall m u q (s.startElem p n u now) := by
    constructor <;> simp [hcall.mode, hcall.unit, hcall.msgPtr]
  refine times_cons hbusy htone (elem p n).units_pos hdeadline hwrap fun t hsame hrst _ hnow hwrap' =>
    ⟨_, .elementEnd hrst (hsame.ctl ▸ hctl) hnow, ?_⟩
  have hpat : s.pattern = t.pattern := by rw [← hsame.pattern, startElem_pattern]
  have hidx : s.idx = t.idx := by rw [← hsame.idx, startElem_idx]
  exact times_elementExpiry (hpat ▸ hidx ▸ hgap) (hcall'.of_sameRegisters hsame) hwrap'

/-- The end of the silence at bit `j`: the elements below it, then what the end of the character begins. -/
theorem gapTimes_elementsBelow (hdone : DoneTimes holds m u q rest) (p : Byte) (n : Nat) : ∀ j : BitVec 3,
    j.toNat = n → GapTimes holds m u q p j (elementIntervals (elementsBelow p n) ++ rest) := by
  induction n with
  | zero =>
    intro j hj t hcall htone _ hidx hwrap
    have hlast : t.idx = 0 := hidx.trans (BitVec.eq_of_toNat_eq hj)
    rw [gapExpiry_of_last hlast, hcall.mode, hcall.unit]
    exact hdone t _ hcall htone hwrap
  | succ n ih =>
    intro j hj t hcall _ hpat hidx hwrap
    have hmore : t.idx ≠ 0 := fun h => by simp [← hidx, h] at hj
    have hnext : (t.idx - 1).toNat = n := by rw [hidx]; bv_omega
    rw [gapExpiry_of_more hmore, hpat, hcall.unit, show t.idx.toNat - 1 = n by rw [hidx]; omega]
    exact times_startElem (ih _ hnext) ⟨hcall.mode, rfl, hcall.msgPtr⟩ hwrap

/-- A character, from `BeginChar` to what its end begins (R120, R121, R130). -/
theorem times_beginChar (hdone : DoneTimes holds m u q rest) (hcall : InCall m u q s)
    (hsilent : nelem p = 0 → s.tone = false)
    (hwrap : now.toNat + unitsOf (characterIntervals p ++ rest) * u.toNat < 2 ^ 32) :
    Times holds u.toNat (characterIntervals p ++ rest) now.toNat (s.beginChar p m u now) := by
  obtain ⟨hmode, hunit, hptr⟩ := hcall
  by_cases hspace : p = 0xEF#8
  · subst hspace
    rw [beginChar_space s m u now rfl]
    refine times_cons (by simp) (hsilent rfl) (by decide) rfl hwrap
      fun t hsame hrst _ hnow hwrap' => ⟨_, .spaceEnd hrst hsame.ctl.symm hnow, ?_⟩
    have hcall : InCall m u q t :=
      ⟨hsame.mode.symm.trans hmode, hsame.unit.symm.trans hunit, hsame.msgPtr.symm.trans hptr⟩
    rw [State.spaceExpiry, hcall.mode, hcall.unit]
    exact hdone t _ hcall (hsame.tone.symm.trans (hsilent rfl)) hwrap'
  have hchar : characterIntervals p = elementIntervals (elementsBelow p (nelem p)) :=
    if_neg fun h => hspace ((isSpace_iff p).1 h)
  rw [hchar] at hwrap ⊢
  cases hn : nelem p with
  | zero =>
    rw [hn] at hwrap
    rw [beginChar_empty s m u now hspace hn]
    exact hdone _ now ⟨hmode, hunit, hptr⟩ (hsilent hn) hwrap
  | succ n =>
    rw [hn] at hwrap
    have hfirst : nelem p - 1 = n := by omega
    have hidx : (BitVec.ofNat 3 n).toNat = n := hfirst ▸ toNat_firstElement p
    rw [beginChar_element s m u now hspace (by omega), hfirst]
    exact times_startElem (gapTimes_elementsBelow hdone p n _ hidx) ⟨hmode, hunit, hptr⟩ hwrap

theorem unitsOf_elementIntervals (es : List Element) :
    unitsOf (elementIntervals es) = totalUnits es + es.length := by
  induction es with
  | nil => rfl
  | cons e es ih =>
    have htotal : totalUnits (e :: es) = e.units + totalUnits es := by simp [totalUnits]
    simp only [elementIntervals_cons, unitsOf_cons, ih, htotal, List.length_cons]
    omega

/-- The length of a character: `D + k` units, 4 for the space (R110, R120, R128). -/
theorem unitsOf_characterIntervals (p : Byte) : unitsOf (characterIntervals p) =
    if p = 0xEF#8 then 4 else totalUnits (elementsOf p) + (elementsOf p).length := by
  unfold characterIntervals
  simp only [isSpace_iff]
  split
  · rfl
  · exact unitsOf_elementIntervals _

end Sys2Proof.Machine
end

section
/-! The obligations of 42_element_player.md. -/

namespace Sys2Proof.Machine

/-- Settles O26: the word of seven elements in the family of patterns with a start bit. -/
theorem sevenElementPatternsPlay : Obligations.SevenElementPatternsPlay := by
  refine ⟨fun e s => exec_patternInstr_begins e s (by decide) (by decide) rfl, fun e => ?_⟩
  have hlow : (0b0#1 ++ e).toNat < 0x80 := by
    rw [BitVec.toNat_append]
    simpa using e.isLt
  exact (length_elementsBelow _ _).trans (nelem_of_lt hlow)

/-- Settles O27: the branches of `BeginChar` that key no element. -/
theorem patternsWithoutElements : Obligations.PatternsWithoutElements := by
  intro s
  have hdone (p : Byte) (hspace : p ≠ 0xEF#8) (hempty : nelem p = 0) :
      s.playPattern p = State.finishChar { s with pattern := p } s.mode s.unit s.ports.now :=
    beginChar_empty s _ _ _ hspace hempty
  have hpat0 := hdone 0xFE#8 (by decide) rfl
  have hnoStart := hdone 0xFF#8 (by decide) rfl
  refine ⟨congrArg Host.Outcome.next (beginChar_space s _ _ _ rfl), fun hmode => ⟨?_, ?_⟩, fun hmode => ⟨?_, ?_⟩⟩
  · exact congrArg Host.Outcome.next (hpat0.trans (finishChar_of_char _ _ _ hmode))
  · exact congrArg Host.Outcome.next (hnoStart.trans (finishChar_of_char _ _ _ hmode))
  · exact congrArg Host.Outcome.next (hpat0.trans (finishChar_of_msg _ _ _ hmode))
  · exact congrArg Host.Outcome.next (hnoStart.trans (finishChar_of_msg _ _ _ hmode))

/-- Settles O29: the two sides of the deadline in SEND_DIT and SEND_DAH. -/
theorem toneEndsAtTheDeadline : Obligations.ToneEndsAtTheDeadline := by
  intro s hrst hctl
  exact ⟨step_element_expiry hrst hctl, step_waiting hrst (by rcases hctl with h | h <;> simp [h])⟩

/-- Settles O30: `FinishChar` after the last element, `StartElem` on the next lower bit before. -/
theorem gapEndsWithTheNextElementOrDone : Obligations.GapEndsWithTheNextElementOrDone := by
  intro s hrst hctl
  refine ⟨step_waiting hrst (by simp [hctl]), fun hnow hlast hmode => ?_, fun hnow hlast hmode => ?_,
    fun hnow hmore hbit => ?_, fun hnow hmore hbit => ?_⟩ <;> rw [step_gap_expiry hrst hctl hnow]
  · rw [gapExpiry_of_last hlast, finishChar_of_char _ _ _ hmode]
  · rw [gapExpiry_of_last hlast, finishChar_of_msg _ _ _ hmode]
  · rw [gapExpiry_of_more hmore, startElem_of_dit _ _ _ ((elem_dit_iff _ _).2 hbit)]
  · rw [gapExpiry_of_more hmore, startElem_of_dah _ _ _ ((elem_dah_iff _ _).2 hbit)]

/-- Settles O31: `FinishChar` in both modes. -/
theorem spaceWaitEndsSilently : Obligations.SpaceWaitEndsSilently := by
  intro s hrst hctl
  refine ⟨step_waiting hrst (by simp [hctl]), fun hnow hmode => ?_, fun hnow hmode => ?_⟩ <;>
    rw [step_space_expiry hrst hctl hnow, State.spaceExpiry]
  · rw [finishChar_of_char _ _ _ hmode]
  · rw [finishChar_of_msg _ _ _ hmode]

/-- Settles O33: the equations of `StartElem` and `FinishChar`, and each at its worked example. -/
theorem playerProceduresWriteWhatTheyName : Obligations.PlayerProceduresWriteWhatTheyName := by
  intro s p i u now
  exact ⟨fun hbit => startElem_of_dit s u now ((elem_dit_iff p i).2 hbit),
    fun hbit => startElem_of_dah s u now ((elem_dah_iff p i).2 hbit),
    finishChar_char s u now, finishChar_msg s u now,
    startElem_of_dit s 50#16 0#32 (by decide), finishChar_msg s 100#16 600#32⟩

/-- Settles O34: a unit is below 2^16. -/
theorem deadlinesAreExactModuloTheClock : Obligations.DeadlinesAreExactModuloTheClock := by
  refine ⟨fun now n u _ hn => ⟨toNat_dl now n u, ?_⟩, expired_iff⟩
  calc n * u.toNat ≤ 4 * u.toNat := Nat.mul_le_mul_right _ hn
    _ < 2 ^ 19 := by have := u.isLt; omega

/-- Settles O48, edge by edge. -/
theorem waitingStatesLastUntilTheDeadline : Obligations.WaitingStatesLastUntilTheDeadline :=
  fun s n hctl => run_before_deadline n s (bne_iff_ne.1 hctl)

/-- Settles O51: an edge that leaves the deadline and stays or ends idle is shut out by the premise. -/
theorem zeroUnitDeadlinesAreNow : Obligations.ZeroUnitDeadlinesAreNow := by
  intro s t hrst hidle hbusy hstep hchange
  obtain ⟨r, he, rfl⟩ := step_inversion hstep
  rw [nextCycle_ctl, nextCycle_deadline] at hchange
  rw [nextCycle_deadline]
  rcases he.nowOrIdle_of_zero_unit hrst hidle hbusy with rfl | hnow | ⟨hdeadline, hctl⟩
  · simp at hchange
  · exact hnow
  · simp [hdeadline, hctl] at hchange

/-- Settles O49: the edge that accepts PLAY leaves registers that time the character, whose end ends the call. -/
theorem playedCharactersKeepTheirTimeline : Obligations.PlayedCharactersKeepTheirTimeline := by
  intro s m p is hctl hcmd hsilent hunit hwrap hsteady
  refine ⟨fun k hk => ?_, unitsOf_characterIntervals p⟩
  obtain ⟨hrst, -⟩ := hsteady 0 (Nat.zero_lt_of_lt hk)
  have hcall : InCall .char s.ports.unitIn s.msgPtr s.latchPlay := ⟨rfl, rfl, rfl⟩
  have htimes := times_beginChar (doneTimes_char (fun _ => True) s.ports.unitIn s.msgPtr) hcall hsilent
    (now := s.ports.now) (by rwa [List.append_nil])
  rw [List.append_nil] at htimes
  exact htimes.followsTimeline hunit (.play hrst hctl hcmd) hsteady (fun _ _ => trivial) k hk

end Sys2Proof.Machine
end

section
/-! SUPPORT. The Message Sender times the characters of the message that the memory holds, each with its gap
(43_message_sender.md R133 to R137). -/

namespace Sys2Proof.Machine

/-- From the address on, addresses modulo 2^16, the memory holds the message and then the terminator (R39, R135). -/
def HoldsMessage (m : Memory) : Addr → List Byte → Prop
  | a, [] => memRead m a.toNat = 0x00#8
  | a, c :: cs => memRead m a.toNat = c ∧ HoldsMessage m (a + 1) cs

/-- The bytes by their offsets from the address. -/
theorem holdsMessage_iff {m : Memory} {a : Addr} {cs : List Byte} : HoldsMessage m a cs ↔
    ∀ i, i ≤ cs.length → memRead m (a + BitVec.ofNat 16 i).toNat = cs.getD i 0x00#8 := by
  induction cs generalizing a with
  | nil => simp [HoldsMessage, -BitVec.toNat_add]
  | cons c cs ih =>
    have hshift (i : Nat) : a + 1 + BitVec.ofNat 16 i = a + BitVec.ofNat 16 (i + 1) := by
      rw [BitVec.add_assoc, BitVec.ofNat_add, BitVec.add_comm (BitVec.ofNat 16 i)]; rfl
    simp only [HoldsMessage, ih, hshift]
    constructor
    · rintro ⟨hfirst, hrest⟩ (_ | i) hi
      · simpa using hfirst
      · exact hrest i (Nat.le_of_succ_le_succ hi)
    · intro h
      exact ⟨by simpa using h 0 (Nat.zero_le _), fun i hi => h (i + 1) (Nat.succ_le_succ hi)⟩

/-- In the call of a SEND, a `Fetch` at `q` times `is`, while the memory is as promised and the deadlines do not
wrap (R133). -/
def FetchTimes (holds : Memory → Prop) (u : Duration) (q : Addr) (is : List Interval) : Prop :=
  ∀ (s : State) (now : Tick), InCall .msg u q s → s.tone = false → holds s.mem →
    now.toNat + unitsOf is * u.toNat < 2 ^ 32 → Times holds u.toNat is now.toNat (s.fetch q u now)

variable {holds : Memory → Prop} {u : Duration} {q : Addr} {is : List Interval}

/-- The end of a message's character begins its gap, whose end fetches the next byte (R125, R134). -/
theorem FetchTimes.doneTimes (hfetch : FetchTimes holds u q is) : DoneTimes holds .msg u q (⟨false, 2⟩ :: is) := by
  intro s now hcall htone hwrap
  have hcall' : InCall .msg u q (s.finishChar .msg u now) := ⟨hcall.mode, hcall.unit, hcall.msgPtr⟩
  refine times_cons (by simp) htone (by decide) rfl hwrap fun t hsame hrst hmem hnow hwrap' => ?_
  have hcallt : InCall .msg u q t := hcall'.of_sameRegisters hsame
  have hedge := EdgeCase.charGapEnd hrst hsame.ctl.symm hnow
  rw [hcallt.msgPtr, hcallt.unit] at hedge
  exact ⟨_, hedge, hfetch t _ hcallt (hsame.tone.symm.trans htone) hmem hwrap'⟩

/-- A `Fetch` at the start of a promised message times the whole of it: the terminator ends the call, any other
byte begins its character, with the rest of the message after its gap. -/
theorem fetchTimes_message {cs : List Byte} (hchars : ∀ c ∈ cs, c ≠ 0x00#8)
    (hmessage : ∀ m, holds m → HoldsMessage m q cs) : FetchTimes holds u q (messageIntervals cs) := by
  induction cs generalizing q with
  | nil =>
    intro s now _ htone hmem _
    rw [fetch_of_term s u now (hmessage _ hmem)]
    exact ⟨rfl, htone⟩
  | cons c cs ih =>
    intro s now hcall htone hmem hwrap
    obtain ⟨hc, hrest⟩ := List.forall_mem_cons.1 hchars
    obtain ⟨hread, -⟩ := hmessage _ hmem
    have hnext : FetchTimes holds u (q + 1) (messageIntervals cs) :=
      ih hrest fun m hm => (hmessage m hm).2
    rw [messageIntervals_cons] at hwrap ⊢
    rw [fetch_of_char s u now (hread.symm ▸ hc), hread]
    exact times_beginChar hnext.doneTimes ⟨hcall.mode, hcall.unit, rfl⟩ (fun _ => htone) hwrap

/-- The length of a message: that of each character, and its gap (R134). -/
theorem unitsOf_messageIntervals (cs : List Byte) : unitsOf (messageIntervals cs) =
    (cs.map fun c => (if romRead c = 0xEF#8 then 4
      else totalUnits (elementsOf (romRead c)) + (elementsOf (romRead c)).length) + 2).sum := by
  induction cs with
  | nil => rfl
  | cons c cs ih =>
    rw [messageIntervals_cons, unitsOf_append, unitsOf_cons, unitsOf_characterIntervals, ih, List.map_cons,
      List.sum_cons, Nat.add_assoc]

end Sys2Proof.Machine
end

section
/-! SUPPORT. What an edge of a call in progress reads of the environment: `rst`, `NOW` and the message memory, but
no command and no operand (43_message_sender.md R139, 44_commands_and_step.md R141). -/

namespace Sys2Proof.Machine

/-- The commuting square of a busy edge, the command and its operands being free. -/
theorem EdgeCase.inEnvironment_of_busy {s r e : State} (he : EdgeCase s r) (hbusy : s.ctl ≠ .idle)
    (hrst' : s.ports.rst = e.ports.rst) (hnow' : s.ports.now = e.ports.now) (hmem : s.mem = e.mem) :
    EdgeCase (s.inEnvironment e) (r.inEnvironment e) := by
  cases he with
  | reset hrst => exact .reset (hrst' ▸ hrst)
  | noCommand _ hctl _ | play _ hctl _ | send _ hctl _ => exact absurd hctl hbusy
  | wait hrst hctl hnow => exact .wait (hrst' ▸ hrst) hctl (hnow' ▸ hnow)
  | elementEnd hrst hctl hnow =>
    rw [← elementExpiry_inEnvironment hnow']
    exact .elementEnd (hrst' ▸ hrst) hctl (hnow' ▸ hnow)
  | interElementEnd hrst hctl hnow =>
    rw [← gapExpiry_inEnvironment hnow']
    exact .interElementEnd (hrst' ▸ hrst) hctl (hnow' ▸ hnow)
  | spaceEnd hrst hctl hnow =>
    rw [← spaceExpiry_inEnvironment hnow']
    exact .spaceEnd (hrst' ▸ hrst) hctl (hnow' ▸ hnow)
  | charGapEnd hrst hctl hnow =>
    rw [← fetch_inEnvironment s e _ _ (by rw [hmem]), hnow']
    exact .charGapEnd (hrst' ▸ hrst) hctl (hnow' ▸ hnow)

end Sys2Proof.Machine
end

section
/-! The obligations of 43_message_sender.md. -/

namespace Sys2Proof.Machine

/-- Settles O53: the edge that accepts SEND leaves registers that time the message, by induction along it. -/
theorem sentMessagesKeepTheirTimeline : Obligations.SentMessagesKeepTheirTimeline := by
  intro s m cs is hctl hcmd hsilent hunit hwrap hsteady hchars hreads
  refine ⟨fun k hk => ?_, unitsOf_messageIntervals cs⟩
  have hm : 0 < m := Nat.zero_lt_of_lt hk
  obtain ⟨hrst, -⟩ := hsteady 0 hm
  have hholds : ∀ j, j < m → HoldsMessage (s.cycleAt j).mem s.ports.msgBase cs :=
    fun j hj => holdsMessage_iff.2 (hreads j hj)
  have hfetch : FetchTimes (HoldsMessage · s.ports.msgBase cs) s.ports.unitIn s.ports.msgBase is :=
    fetchTimes_message hchars fun _ h => h
  have htimes := hfetch s.latchSend s.ports.now ⟨rfl, rfl, rfl⟩ hsilent (hholds 0 hm) hwrap
  exact htimes.followsTimeline hunit (.send hrst hctl hcmd) hsteady hholds k hk

/-- Settles O20: a busy edge samples no command and no operand. -/
theorem commandsAreIgnoredWhileBusy : Obligations.CommandsAreIgnoredWhileBusy := by
  intro s k u p a hbusy
  obtain ⟨r, he⟩ := edgeCase_exists s
  have he' := he.inEnvironment_of_busy hbusy rfl rfl rfl
    (e := { s with ports := { s.ports with cmd := k, unitIn := u, patIn := p, msgBase := a } })
  exact ⟨congrArg Host.Outcome.next (if_neg hbusy), congrArg Host.Outcome.next (if_neg hbusy),
    _, _, he.step_eq, he'.step_eq, (sameRegisters_inEnvironment r _).nextCycle⟩

/-- Settles O32: the two sides of the deadline in CHAR_GAP, then the three things that the fetched byte can do. -/
theorem charGapEndsWithTheFetch : Obligations.CharGapEndsWithTheFetch := by
  intro s hrst hctl c p
  have hexpiry (hnow : s.deadline.toNat ≤ s.ports.now.toNat) :
      step s = .next (s.fetch s.msgPtr s.unit s.ports.now).nextCycle :=
    (EdgeCase.charGapEnd hrst hctl hnow).step_eq
  have hchar (hc : c ≠ 0x00#8) : s.fetch s.msgPtr s.unit s.ports.now = s.playCode c := fetch_of_char s _ _ hc
  refine ⟨step_waiting hrst (by simp [hctl]), fun hnow hterm => ?_, fun hnow hc hspace => ?_,
    fun hnow hc hkeyed => ?_⟩ <;> rw [hexpiry hnow]
  · rw [fetch_of_term s _ _ hterm]
  · rw [hchar hc]
    exact congrArg (Host.Outcome.next ∘ State.nextCycle) (beginChar_space _ _ _ _ hspace)
  · rw [hchar hc, playCode_begun s hkeyed]

/-- Settles O28: `Fetch` finds the terminator at the accepting edge, and `ctl` was IDLE before it. -/
theorem emptyMessageReturnsAtOnce : Obligations.EmptyMessageReturnsAtOnce := by
  intro s hrst hctl hcmd hterm
  rw [(EdgeCase.send hrst hctl hcmd).step_eq, fetch_of_term s.latchSend _ _ hterm, ← hctl]
  rfl

end Sys2Proof.Machine
end

section
/-! SUPPORT. The table of 44_commands_and_step.md R147 is flat: one write for each way a character can begin,
whether PLAY, SEND or CHAR_GAP begins it. -/

namespace Sys2Proof.Machine

section
variable (s : State) {p c : Byte} (m : Mode) (u : Duration) (now : Tick) {a : Addr}

/-- The element branch of `BeginChar` with a DIT first. -/
theorem beginChar_dit (hspace : p ≠ 0xEF#8) (hpos : 1 ≤ nelem p) (hbit : p.getLsbD (nelem p - 1) = false) :
    s.beginChar p m u now = { s with
      pattern := p, idx := BitVec.ofNat 3 (nelem p - 1), tone := true, deadline := dl now 1 u, ctl := .sendDit } := by
  rw [beginChar_element s m u now hspace hpos, startElem_of_dit _ u now ((elem_dit_iff _ _).2 hbit)]

/-- The element branch of `BeginChar` with a DAH first. -/
theorem beginChar_dah (hspace : p ≠ 0xEF#8) (hpos : 1 ≤ nelem p) (hbit : p.getLsbD (nelem p - 1) = true) :
    s.beginChar p m u now = { s with
      pattern := p, idx := BitVec.ofNat 3 (nelem p - 1), tone := true, deadline := dl now 3 u, ctl := .sendDah } := by
  rw [beginChar_element s m u now hspace hpos, startElem_of_dah _ u now ((elem_dah_iff _ _).2 hbit)]

/-- `0xFE` and `0xFF` end a PLAY where it begins (R130 (a)). -/
theorem beginChar_char_empty (hempty : p = 0xFE#8 ∨ p = 0xFF#8) :
    s.beginChar p .char u now = { s with pattern := p, ctl := .idle } := by
  obtain ⟨hspace, hnelem⟩ : p ≠ 0xEF#8 ∧ nelem p = 0 := by rcases hempty with rfl | rfl <;> decide
  rw [beginChar_empty s .char u now hspace hnelem, finishChar_char]

/-- Every other byte has an element (R52). -/
theorem nelem_pos_of_ne {p : Byte} (hspace : p ≠ 0xEF#8) (hzero : p ≠ 0xFE#8) (hones : p ≠ 0xFF#8) :
    1 ≤ nelem p := by
  cases hstart : startPos p with
  | none => exact absurd ((startPos_eq_none_iff p).1 hstart) hones
  | some n =>
    have hn : n ≠ 0 := by
      rintro rfl
      exact hzero ((startPos_eq_zero_iff p).1 hstart)
    rw [nelem_of_startPos hspace hstart]
    exact Nat.one_le_iff_ne_zero.2 hn

variable (hbyte : memRead s.mem a.toNat = c) (hterm : c ≠ 0x00#8)
include hbyte hterm

/-- A fetched byte whose entry is the sentinel. -/
theorem fetch_of_space (hspace : romRead c = 0xEF#8) :
    s.fetch a u now =
      { s with msgPtr := a + 1, pattern := romRead c, deadline := dl now 4 u, ctl := .spaceWait } := by
  subst hbyte
  rw [fetch_of_char s u now hterm, beginChar_space _ _ u now hspace]

/-- A fetched byte whose entry begins with a DIT. -/
theorem fetch_of_dit (hspace : romRead c ≠ 0xEF#8)
    (hbit : (romRead c).getLsbD (nelem (romRead c) - 1) = false) :
    s.fetch a u now = { s with
      msgPtr := a + 1, pattern := romRead c, idx := BitVec.ofNat 3 (nelem (romRead c) - 1), tone := true
      deadline := dl now 1 u, ctl := .sendDit } := by
  subst hbyte
  rw [fetch_of_char s u now hterm, beginChar_dit _ _ u now hspace (nelem_romRead_pos hspace) hbit]

/-- A fetched byte whose entry begins with a DAH. -/
theorem fetch_of_dah (hspace : romRead c ≠ 0xEF#8)
    (hbit : (romRead c).getLsbD (nelem (romRead c) - 1) = true) :
    s.fetch a u now = { s with
      msgPtr := a + 1, pattern := romRead c, idx := BitVec.ofNat 3 (nelem (romRead c) - 1), tone := true
      deadline := dl now 3 u, ctl := .sendDah } := by
  subst hbyte
  rw [fetch_of_char s u now hterm, beginChar_dah _ _ u now hspace (nelem_romRead_pos hspace) hbit]

end

/-! ## The commands at an idle edge, and the step that takes an instruction -/

section
variable {s t r r' : State} {i : Instr}

/-- PLAY is accepted (R143). -/
theorem exec_play_of_idle (hctl : s.ctl = .idle) :
    exec .play s = .next (s.latchPlay.beginChar s.ports.patIn .char s.ports.unitIn s.ports.now) :=
  congrArg Host.Outcome.next (if_pos hctl)

/-- SEND is accepted (R144). -/
theorem exec_send_of_idle (hctl : s.ctl = .idle) :
    exec .send s = .next (s.latchSend.fetch s.ports.msgBase s.ports.unitIn s.ports.now) :=
  congrArg Host.Outcome.next (if_pos hctl)

/-- An idle edge runs the command on `CMD` (R141). -/
theorem step_of_command (hrst : s.ports.rst = false) (hctl : s.ctl = .idle) (hcmd : decodeCmd s.ports.cmd = i)
    (hexec : exec i s = .next t) : step s = .next t.nextCycle := by
  rw [step_idle hrst hctl, hcmd, hexec]; rfl

/-- An idle edge whose command does what an instruction does in some state answers as that instruction does. -/
theorem step_of_command_effect (hrst : s.ports.rst = false) (hctl : s.ctl = .idle)
    (heffect : exec (decodeCmd s.ports.cmd) s = exec i r) :
    ∃ t, exec i r = .next t ∧ step s = .next t.nextCycle := by
  obtain ⟨t, hexec, -⟩ := exec_effect i r
  exact ⟨t, hexec, step_of_command hrst hctl rfl (heffect.trans hexec)⟩

/-- The expiry of CHAR_GAP runs the character at `msg_ptr` (R134). -/
theorem step_of_message (hrst : s.ports.rst = false) (hctl : s.ctl = .charGap)
    (hnow : s.deadline.toNat ≤ s.ports.now.toNat) (hbyte : decodeChar (memRead s.mem s.msgPtr.toNat) = i)
    (hexec : exec i s = .next t) : step s = .next t.nextCycle := by
  rw [step_char_gap_expiry hrst hctl hnow, hbyte, hexec]; rfl

/-- A step whose edge leaves a state written out. -/
theorem EdgeCase.step_of_eq (he : EdgeCase s r) (h : r = r') : step s = .next r'.nextCycle :=
  h ▸ he.step_eq

end

end Sys2Proof.Machine
end

section
/-! SUPPORT. The decoders of the three formats as functions of one word, and the state in which a word of the
opcode table is placed (log 12, log 13). -/

namespace Sys2Proof.Machine

/-- The command format reads the two bits of `CMD` back from their byte. -/
theorem decode_cmd2_setWidth (c : BitVec 2) (bs : List Byte) :
    decode .cmd2 (c.setWidth 8 :: bs) = .ok (decodeCmd c, bs) := by
  have hlow : (c.setWidth 8).toNat < 4 := by bv_omega
  have hback : (c.setWidth 8).setWidth 2 = c := by bv_omega
  simp only [decode, if_pos hlow, hback]

section
variable {i : Instr} (hwf : i.wellFormed = true)
include hwf

theorem decodeChar_encode (hformat : i.format = .char8) : decodeChar (encode i) = i := by
  have h := decodingAnEncodedInstructionGivesItBack i [] hwf
  rw [hformat] at h
  simpa [decode] using h

theorem decodePat_encode (hformat : i.format = .pat8) : decodePat (encode i) = i := by
  have h := decodingAnEncodedInstructionGivesItBack i [] hwf
  rw [hformat] at h
  simpa [decode] using h

theorem decodeCmd_encode (hformat : i.format = .cmd2) : decodeCmd ((encode i).setWidth 2) = i := by
  have h := decodingAnEncodedInstructionGivesItBack i [] hwf
  rw [hformat] at h
  by_cases hlow : (encode i).toNat < 4
  · simpa [decode, hlow] using h
  · simp [decode, hlow] at h

end

/-- A table word that reads as an instruction is placed as that instruction's word, in its format. -/
theorem withFetchWord_of_decodeTableWord {nbits w : Nat} {i : Instr} (h : decodeTableWord nbits w = some i)
    (s : State) : i.wellFormed = true ∧ s.withFetchWord nbits w = s.placeWord i.format (encode i) := by
  unfold decodeTableWord at h
  unfold State.withFetchWord
  split at h
  case isTrue => cases h
  case isFalse =>
    split at h
    case h_2 => cases h
    case h_1 j rest hdecode =>
      obtain rfl : j = i := Option.some.inj h
      obtain ⟨hwf, hformat, hbytes⟩ := decodedWordsAreTheirEncodings _ _ _ _ hdecode
      obtain ⟨hword, -⟩ := List.cons.inj hbytes
      exact ⟨hwf, by rw [hformat, ← hword]⟩

section
variable (s : State) (f : Format) (b : Byte)

theorem sameRegisters_placeWord : SameRegisters { s with ctl := .idle } (s.placeWord f b) := by
  cases f <;> constructor <;> rfl

@[simp] theorem placeWord_ctl : (s.placeWord f b).ctl = .idle := (sameRegisters_placeWord s f b).ctl.symm
@[simp] theorem placeWord_script : (s.placeWord f b).script = s.script := by cases f <;> rfl
@[simp] theorem placeWord_rst : (s.placeWord f b).ports.rst = false := by cases f <;> rfl
@[simp] theorem placeWord_now : (s.placeWord f b).ports.now = s.ports.now := by cases f <;> rfl
@[simp] theorem placeWord_unitIn : (s.placeWord f b).ports.unitIn = s.ports.unitIn := by cases f <;> rfl
@[simp] theorem placeWord_msgBase : (s.placeWord f b).ports.msgBase = s.ports.msgBase := by cases f <;> rfl

end

/-- A placed character is the byte that SEND fetches first. -/
theorem memRead_placeWord_char {s : State} (hwf : memWf s.mem = true) (b : Byte) :
    memRead (s.placeWord .char8 b).mem (s.placeWord .char8 b).ports.msgBase.toNat = b :=
  (memRead_memWrite _ _ b hwf).trans (if_pos rfl)

end Sys2Proof.Machine
end

section
/-! The obligations of 44_commands_and_step.md. -/

namespace Sys2Proof.Machine

/-- Settles O14: both commands are the case of an edge that takes none. -/
theorem nopAndReservedChangeNothing : Obligations.NopAndReservedChangeNothing :=
  fun _ => ⟨rfl, rfl, fun hrst hctl hcmd => (EdgeCase.noCommand hrst hctl hcmd).step_eq⟩

/-- Settles O15: the branches of `BeginChar` on the latched state, and the classes of pattern bytes. -/
theorem playBeginsThePattern : Obligations.PlayBeginsThePattern := by
  intro s hctl p u q s0
  rw [exec_play_of_idle hctl]
  refine ⟨fun hspace => ?_, fun hempty => ?_, fun hspace hpos hbit => ?_, fun hspace hpos hbit => ?_, ?_⟩
  · rw [beginChar_space _ _ _ _ hspace]; rfl
  · rw [beginChar_char_empty _ _ _ hempty, ← hctl]; rfl
  · rw [beginChar_dit _ _ _ _ hspace hpos hbit]; rfl
  · rw [beginChar_dah _ _ _ _ hspace hpos hbit]; rfl
  · by_cases hspace : p = 0xEF#8
    · exact .inl hspace
    by_cases hzero : p = 0xFE#8
    · exact .inr (.inl hzero)
    by_cases hones : p = 0xFF#8
    · exact .inr (.inr (.inl hones))
    exact .inr (.inr (.inr ⟨hspace, nelem_pos_of_ne hspace hzero hones⟩))

/-- Settles O16: what `Fetch` finds at `MSG_BASE`, on the latched state. -/
theorem sendFetchesTheFirstCharacter : Obligations.SendFetchesTheFirstCharacter := by
  intro s hctl c p u q s0 s1
  rw [exec_send_of_idle hctl]
  refine ⟨fun hterm => ?_, fun hterm hspace => ?_, fun hterm hspace hbit => ?_, fun hterm hspace hbit => ?_⟩
  · rw [fetch_of_term s.latchSend _ _ hterm, ← hctl]; rfl
  · rw [fetch_of_space s.latchSend _ _ rfl hterm hspace]; rfl
  · rw [fetch_of_dit s.latchSend _ _ rfl hterm hspace hbit]; rfl
  · rw [fetch_of_dah s.latchSend _ _ rfl hterm hspace hbit]; rfl

/-- Settles O17: any pattern byte plays itself. -/
theorem playRunsThePatternInstruction : Obligations.PlayRunsThePatternInstruction := by
  intro s hctl
  rw [exec_play_of_idle hctl, exec_decodePat]; rfl

/-- Settles O18: the character at `msg_ptr` does what `Fetch` does, and SEND latches `MSG_BASE` there. -/
theorem sendRunsTheFetchedInstruction : Obligations.SendRunsTheFetchedInstruction := by
  intro s hctl
  rw [exec_send_of_idle hctl]
  exact (exec_decodeChar_at_msgPtr s.latchSend).symm

/-- Settles O39: the decoders of the two formats that an edge reads. -/
theorem stepRunsTheTakenInstruction : Obligations.StepRunsTheTakenInstruction := by
  intro s t i hrst
  refine ⟨fun hctl hdecode hexec => ?_, fun hctl hnow hdecode hexec => ?_⟩
  · rw [decode_cmd2_setWidth] at hdecode
    exact step_of_command hrst hctl (by simpa using hdecode) hexec
  · exact step_of_message hrst hctl hnow (by simpa [decode] using hdecode) hexec

/-- Settles O52: each format's word reaches the decoder that reads it; a pattern through PLAY (O17), a
character through the byte that SEND fetches (O18). -/
theorem placedWordsAreTaken : Obligations.PlacedWordsAreTaken := by
  intro s nbits w i hmem hword r
  obtain ⟨hwf, hr⟩ := withFetchWord_of_decodeTableWord hword s
  obtain ⟨hrst, hctl⟩ : r.ports.rst = false ∧ r.ctl = .idle := by simp [r, hr]
  refine ⟨fun hformat => step_of_command_effect hrst hctl ?_, fun hformat => step_of_command_effect hrst hctl ?_,
    fun hformat => step_of_command_effect hrst hctl ?_, ?_, hrst, ?_⟩
  · have hcmd : decodeCmd r.ports.cmd = i := by
      simp only [r, hr, hformat]
      exact decodeCmd_encode hwf hformat
    rw [hcmd]
  · have hcmd : decodeCmd r.ports.cmd = .play := by simp only [r, hr, hformat]; rfl
    have hpat : decodePat r.ports.patIn = i := by
      simp only [r, hr, hformat]
      exact decodePat_encode hwf hformat
    rw [hcmd, playRunsThePatternInstruction r hctl, hpat]
  · have hcmd : decodeCmd r.ports.cmd = .send := by simp only [r, hr, hformat]; rfl
    have hchar : decodeChar (memRead r.mem r.ports.msgBase.toNat) = i := by
      simp only [r, hr, hformat, memRead_placeWord_char hmem]
      exact decodeChar_encode hwf hformat
    rw [hcmd, sendRunsTheFetchedInstruction r hctl, hchar]
  · simp only [r, hr]
    exact sameRegisters_placeWord s _ _
  · simp [r, hr]

/-- Settles O38, row by row: the idle rows by the command's case of the edge, the waiting rows by what the state
does before and at its deadline. -/
theorem everyEdgeFollowsTheTransitionTable : Obligations.EveryEdgeFollowsTheTransitionTable := by
  intro s hrst now u c p q
  have hbase (hctl : s.ctl = .idle) : memRead s.mem s.ports.msgBase.toNat = c := by simp only [c, msgAddr, if_pos hctl]
  have hptr (hctl : s.ctl = .charGap) : memRead s.mem s.msgPtr.toNat = c := by simp [c, msgAddr, hctl]
  refine ⟨?noCommand, ?playSpace, ?playEmpty, ?playDit, ?playDah, ?sendTerm, ?sendSpace, ?sendDit, ?sendDah,
    ?elementWait, ?elementEnd, ?gapWait, ?gapDit, ?gapDah, ?gapReturn, ?gapDelay,
    ?spaceWait, ?spaceReturn, ?spaceDelay,
    ?charGapWait, ?charGapTerm, ?charGapSpace, ?charGapDit, ?charGapDah⟩
  case noCommand => exact fun hctl hcmd => (EdgeCase.noCommand hrst hctl hcmd).step_eq
  case playSpace =>
    intro hctl hcmd hspace
    rw [← hspace]
    exact (EdgeCase.play hrst hctl hcmd).step_of_eq (beginChar_space _ _ _ _ hspace)
  case playEmpty =>
    intro hctl hcmd hempty
    exact (EdgeCase.play hrst hctl hcmd).step_of_eq (beginChar_char_empty _ _ _ hempty)
  case playDit =>
    intro hctl hcmd hspace hpos hbit
    exact (EdgeCase.play hrst hctl hcmd).step_of_eq (beginChar_dit _ _ _ _ hspace hpos hbit)
  case playDah =>
    intro hctl hcmd hspace hpos hbit
    exact (EdgeCase.play hrst hctl hcmd).step_of_eq (beginChar_dah _ _ _ _ hspace hpos hbit)
  case sendTerm =>
    intro hctl hcmd hterm
    exact (EdgeCase.send hrst hctl hcmd).step_of_eq (fetch_of_term s.latchSend _ _ ((hbase hctl).trans hterm))
  case sendSpace =>
    intro hctl hcmd hterm hspace
    rw [← hspace]
    exact (EdgeCase.send hrst hctl hcmd).step_of_eq (fetch_of_space s.latchSend _ _ (hbase hctl) hterm hspace)
  case sendDit =>
    intro hctl hcmd hterm hspace hbit
    exact (EdgeCase.send hrst hctl hcmd).step_of_eq (fetch_of_dit s.latchSend _ _ (hbase hctl) hterm hspace hbit)
  case sendDah =>
    intro hctl hcmd hterm hspace hbit
    exact (EdgeCase.send hrst hctl hcmd).step_of_eq (fetch_of_dah s.latchSend _ _ (hbase hctl) hterm hspace hbit)
  case elementWait =>
    intro hctl
    obtain ⟨-, hwait⟩ := toneEndsAtTheDeadline s hrst hctl
    exact hwait
  case elementEnd => exact fun hctl hnow => step_element_expiry hrst hctl hnow
  case gapWait | spaceWait | charGapWait => exact fun hctl => step_waiting hrst (by simp [hctl])
  case gapReturn =>
    intro hctl
    obtain ⟨-, hreturn, -⟩ := gapEndsWithTheNextElementOrDone s hrst hctl
    exact hreturn
  case gapDelay =>
    intro hctl
    obtain ⟨-, -, hdelay, -⟩ := gapEndsWithTheNextElementOrDone s hrst hctl
    exact hdelay
  case gapDit =>
    intro hctl
    obtain ⟨-, -, -, hdit, -⟩ := gapEndsWithTheNextElementOrDone s hrst hctl
    exact hdit
  case gapDah =>
    intro hctl
    obtain ⟨-, -, -, -, hdah⟩ := gapEndsWithTheNextElementOrDone s hrst hctl
    exact hdah
  case spaceReturn =>
    intro hctl
    obtain ⟨-, hreturn, -⟩ := spaceWaitEndsSilently s hrst hctl
    exact hreturn
  case spaceDelay =>
    intro hctl
    obtain ⟨-, -, hdelay⟩ := spaceWaitEndsSilently s hrst hctl
    exact hdelay
  case charGapTerm =>
    intro hctl hnow hterm
    exact (EdgeCase.charGapEnd hrst hctl hnow).step_of_eq (fetch_of_term s _ _ ((hptr hctl).trans hterm))
  case charGapSpace =>
    intro hctl hnow hterm hspace
    rw [← hspace]
    exact (EdgeCase.charGapEnd hrst hctl hnow).step_of_eq (fetch_of_space s _ _ (hptr hctl) hterm hspace)
  case charGapDit =>
    intro hctl hnow hterm hspace hbit
    exact (EdgeCase.charGapEnd hrst hctl hnow).step_of_eq (fetch_of_dit s _ _ (hptr hctl) hterm hspace hbit)
  case charGapDah =>
    intro hctl hnow hterm hspace hbit
    exact (EdgeCase.charGapEnd hrst hctl hnow).step_of_eq (fetch_of_dah s _ _ (hptr hctl) hterm hspace hbit)

end Sys2Proof.Machine
end

section
/-! The obligations of 60_exceptions.md. -/

namespace Sys2Proof.Machine

/-- Settles O40: every edge follows a case that answers a state (`EdgeCase.step_eq`), and every instruction has an
effect (`exec_effect`). -/
theorem stepAlwaysAnswersANextState : Obligations.StepAlwaysAnswersANextState := by
  constructor
  · intro s
    obtain ⟨r, hedge⟩ := edgeCase_exists s
    exact ⟨r.nextCycle, hedge.step_eq⟩
  · intro i s
    obtain ⟨t, hexec, -⟩ := exec_effect i s
    exact ⟨t, hexec⟩

end Sys2Proof.Machine
end

section
/-! SUPPORT. The three outputs of R24 and R33 in a state that is idle with the tone off. -/

namespace Sys2Proof.Machine

theorem outputs_of_idle_silent {s : State} (hctl : s.ctl = .idle) (htone : s.tone = false) :
    busy s = false ∧ toneOn s = false ∧ msgAddr s = s.ports.msgBase := by
  obtain ⟨htoneOn, hbusy, hbase, -⟩ := outputsFollowTheRegisters s
  have hquiet : busy s = false := by simpa [hctl] using hbusy
  exact ⟨hquiet, htoneOn.trans htone, hbase hctl⟩

end Sys2Proof.Machine
end

section
/-! The obligations of 70_reset_and_hazards.md. -/

namespace Sys2Proof.Machine

/-- Settles O36: the edge is the reset case, which leaves `ctl` IDLE and the tone off; the environment's move after it
writes no register. -/
theorem resetWinsOverEverything : Obligations.ResetWinsOverEverything := by
  intro s hrst
  have hedge : EdgeCase s s.resetRegisters := .reset hrst
  refine ⟨hedge.step_eq, fun t hstep => ?_⟩
  rw [hedge.next_eq hstep]
  exact outputs_of_idle_silent (nextCycle_ctl s.resetRegisters) (nextCycle_tone s.resetRegisters)

end Sys2Proof.Machine
end
